-- ==== Sys2Proof/Word.lean ====
section
/-! DEFINITION. The word types of the PWM unit (`00_scope.md` R6, R8): every architectural value is unsigned. -/

namespace Sys2Proof

/-- A command word or a response word, 32 bits (`30_encoding.md` R80; `W_CMD` of `00_scope.md` R7). -/
abbrev Word := BitVec 32

/-- One colour channel's intensity, 8 bits (`W_CH` of `00_scope.md` R6). -/
abbrev Intensity := BitVec 8

/-- A count of a counter or a compare value, 16 bits (`W_CNT`, `W_CMP` of `00_scope.md` R6). -/
abbrev Count := BitVec 16

/-- The current-colour register's content, 24 bits, red most significant (`10_state.md` R23). -/
abbrev Rgb := BitVec 24

end Sys2Proof
end

