-- ==== Sys2Proof/Config.lean ====
section
/-! DEFINITION. What is fixed for the machine and changed by no step (`10_state.md` R38), and the free values the
spec leaves open. A free value is an `opaque` constant without a body: no proof can see which value it has. -/

namespace Sys2Proof

/-- The three colour channels `CH` (`00_scope.md` R8). -/
inductive Channel
  | red
  | green
  | blue
deriving DecidableEq, Repr, Inhabited

/-- The two counter units (`00_scope.md` R8). -/
inductive UnitId
  | a
  | b
deriving DecidableEq, Repr

/-- One of the compare channels the counter units offer, two on each: the unit and the number of the channel on it
(`10_state.md` R22, R35). -/
structure ComparePort where
  unit   : UnitId
  number : Fin 2
deriving DecidableEq, Repr

/-- The channel assignment: red to A.0, green to A.1, blue to B.0 (`00_scope.md` R7, `10_state.md` R22, decision D6). No colour
is on B.1, which has no register and no pin here (`10_state.md` R35). -/
def Channel.comparePort : Channel → ComparePort
  | .red => { unit := .a, number := 0 }
  | .green => { unit := .a, number := 1 }
  | .blue => { unit := .b, number := 0 }

/-- `unit(c)`, the counter unit a channel is compared against (`10_state.md` R22). -/
def Channel.unit (c : Channel) : UnitId := c.comparePort.unit

/-- The level of an output pin: 0, 1 or not driven (`10_state.md` R34). -/
inductive PinLevel
  | low
  | high
  | z
deriving DecidableEq, Repr, Inhabited

namespace Config

/-- `TOP`, the fixed top of both counters and the table's last entry (`00_scope.md` R6, `70_reset_and_hazards.md` R227). -/
def top : Nat := 65535

/-- `PERIOD`, the ticks of one counter period (`00_scope.md` R7). -/
def period : Nat := 131070

/-- The stand-in table of `95_test_vectors.md` section 4, as a Nat function. It shows that the four properties hold
together; it is not the hardware's table and no meaning reads it. -/
def witnessEntry (i : Nat) : Nat :=
  if i ≤ 128 then 16 * i else 2048 + (i - 128) * 63487 / 127

/-- The stand-in table never falls. -/
theorem witnessEntry_rising (i : Nat) (h : i < 255) :
    BitVec.ofNat 16 (witnessEntry (BitVec.ofNat 8 i).toNat)
      ≤ BitVec.ofNat 16 (witnessEntry (BitVec.ofNat 8 (i + 1)).toNat) := by
  have h1 : witnessEntry i ≤ witnessEntry (i + 1) := by unfold witnessEntry; split <;> split <;> omega
  have h2 : witnessEntry (i + 1) ≤ 65535 := by unfold witnessEntry; split <;> omega
  simp only [BitVec.le_def, BitVec.toNat_ofNat]
  rw [Nat.mod_eq_of_lt (a := i) (by omega), Nat.mod_eq_of_lt (a := i + 1) (by omega)]
  omega

/-- A gamma table: 256 entries of 16 bits with the four properties of `40_gamma_lut.md` R101 to R104 and no other
(R105). A configuration whose last entry is not `TOP` cannot be built (`70_reset_and_hazards.md` R227). The default
field values only show that such a table exists. -/
structure GammaTable where
  entry : Intensity → Count := fun i => BitVec.ofNat 16 (witnessEntry i.toNat)
  /-- R101 -/
  first : entry 0 = 0 := by decide
  /-- R102 -/
  last : entry 255 = BitVec.ofNat 16 top := by decide
  /-- R103 -/
  rising : ∀ i : Nat, i < 255 → entry (BitVec.ofNat 8 i) ≤ entry (BitVec.ofNat 8 (i + 1)) := by
    exact Sys2Proof.Config.witnessEntry_rising
  /-- R104 -/
  middle : entry 128 = 2048 := by decide
deriving Inhabited

/-- `GAMMA`, the gamma table: open but for its four properties (`00_scope.md` R7, `40_gamma_lut.md` R105). -/
opaque gamma : GammaTable

/-- `PHASE_B0`, the position of counter B when counter A is at position 0: open (`00_scope.md` R7, decision D9). -/
opaque phaseB0 : Fin 131070

/-- `F_TICK`, ticks per second: open, and no rule reads it (`00_scope.md` R7, decision D8). -/
opaque fTick : Nat

/-- The level of a pin observed before `INIT`: a free draw (`44_pwm_datapath.md` R178), one for each value of the draw
counter of the state and each channel. -/
opaque freePin : Nat → Channel → PinLevel

/-- `resp` while `resp_valid = 0`: any value (`30_encoding.md` R87, `93_implementation_defined.md` U10). -/
opaque freeResp : Nat → Word

/-- Whether an LED is lit while its pin is not driven: any value (`93_implementation_defined.md` U13). -/
opaque freeLed : Nat → Channel → Bool

end Config

end Sys2Proof
end

