-- ==== Sys2Proof/Syntax.lean ====
section
/-! DEFINITION. The five commands (`30_encoding.md` R82) and the commands as a listing writes them (R89). -/

namespace Sys2Proof

/-- One command, one constructor per row of `opcode_table.json`. `SETCOLOR` alone has operands, three unsigned 8-bit
immediates, and every value of them is legal (`30_encoding.md` R83). -/
inductive Instr
  | init
  | enable
  | disable
  | setcolor (r g b : Intensity)
  | getcolor
deriving DecidableEq, Repr

/-- The five command names, as `LifecycleMisuse` records them (`60_exceptions.md` R191). -/
inductive CommandName
  | init
  | enable
  | disable
  | setcolor
  | getcolor
deriving DecidableEq, Repr

/-- The name of a command. -/
def Instr.name : Instr → CommandName
  | .init => .init
  | .enable => .enable
  | .disable => .disable
  | .setcolor _ _ _ => .setcolor
  | .getcolor => .getcolor

/-- A command as a listing writes it: the operands are numbers that nobody has checked yet (`30_encoding.md` R89). -/
inductive AsmCommand
  | init
  | enable
  | disable
  | setcolor (r g b : Nat)
  | getcolor
deriving DecidableEq, Repr

/-- A configuration as somebody proposes it, before it is checked (`00_scope.md` R6, R7). -/
structure ConfigCandidate where
  timerWidth : Nat
  table      : List Nat
  phaseB0    : Nat
deriving DecidableEq, Repr

end Sys2Proof
end

