-- ==== Sys2Proof/WellFormed.lean ====
section
/-! DEFINITION. The checks: a listing's command (`30_encoding.md` R89) and a proposed configuration
(`00_scope.md` R6, R7; `70_reset_and_hazards.md` R227). An `Instr` needs none: its operands are 8-bit values, and every
one of them is legal (`30_encoding.md` R83). -/

namespace Sys2Proof

/-- "An operand outside `0 .. 255` is an assembly error, not a command" (`30_encoding.md` R89). -/
def operandInRange (n : Nat) : Bool := decide (n ≤ 255)

/-- A listing's command is well formed when each operand is in range. -/
def AsmCommand.wf : AsmCommand → Bool
  | .setcolor r g b => operandInRange r && operandInRange g && operandInRange b
  | .init | .enable | .disable | .getcolor => true

/-- The command a well-formed line of a listing stands for (`30_encoding.md` R89). -/
def AsmCommand.assemble (c : AsmCommand) : Option Instr :=
  if c.wf then
    match c with
    | .init => some .init
    | .enable => some .enable
    | .disable => some .disable
    | .setcolor r g b => some (.setcolor (BitVec.ofNat 8 r) (BitVec.ofNat 8 g) (BitVec.ofNat 8 b))
    | .getcolor => some .getcolor
  else none

/-- No entry is larger than the one after it (`40_gamma_lut.md` R103). -/
def nonDecreasing : List Nat → Bool
  | a :: b :: l => decide (a ≤ b) && nonDecreasing (b :: l)
  | [_] | [] => true

/-- A configuration is accepted when the timer width is 16, the table has 256 entries with the four properties of
`40_gamma_lut.md` R101 to R104, and the phase lies in the period (`00_scope.md` R6, R7). Any other is refused
(decision D34). -/
def ConfigCandidate.wf (c : ConfigCandidate) : Bool :=
  c.timerWidth == 16
    && c.table.length == 256
    && c.table[0]? == some 0
    && c.table[128]? == some 2048
    && c.table[255]? == some Config.top
    && nonDecreasing c.table
    && decide (c.phaseB0 < Config.period)

end Sys2Proof
end

