-- ==== Sys2Proof/Decode.lean ====
section
/-! DEFINITION. Decoding and encoding of command words (`30_encoding.md`). Decoding is total on 32-bit words and reads no
state (R88); what it rejects it names (R85). -/

namespace Sys2Proof

/-- Why a word is reserved: the three classes of `30_encoding.md` R85. -/
inductive ReservedClass
  | opcodeZero          -- `op = 0x00`
  | opcodeUndefined     -- `op` in `0x06 .. 0xFF`
  | operandBitsSet      -- a command without operands with a bit of `cmd[23:0]` set (R84)
deriving DecidableEq, Repr

/-- `Reserved(cmd)` of `30_encoding.md` R88, with its class. -/
structure ReservedWord where
  why : ReservedClass
  cmd : Word
deriving DecidableEq, Repr

/-- `op = cmd[31:24]` (`30_encoding.md` R81). -/
def opField (cmd : Word) : BitVec 8 := cmd.extractLsb' 24 8

/-- `r = cmd[23:16]` (`30_encoding.md` R81). -/
def redField (cmd : Word) : Intensity := cmd.extractLsb' 16 8

/-- `g = cmd[15:8]` (`30_encoding.md` R81). -/
def greenField (cmd : Word) : Intensity := cmd.extractLsb' 8 8

/-- `b = cmd[7:0]` (`30_encoding.md` R81). -/
def blueField (cmd : Word) : Intensity := cmd.extractLsb' 0 8

/-- `cmd[23:0]`, zero in every command but `SETCOLOR` (`30_encoding.md` R84). -/
def operandBits (cmd : Word) : BitVec 24 := cmd.extractLsb' 0 24

/-- The class of a word that is no command (`30_encoding.md` R85), read from its opcode. -/
def reservedClass (cmd : Word) : ReservedClass :=
  if opField cmd = 0x00 then .opcodeZero
  else if 0x06 ≤ opField cmd then .opcodeUndefined
  else .operandBitsSet

/-- `decode` (`30_encoding.md` R88), in that rule's order. -/
def decode (cmd : Word) : Except ReservedWord Instr :=
  if opField cmd = 0x04 then .ok (.setcolor (redField cmd) (greenField cmd) (blueField cmd))
  else if operandBits cmd ≠ 0 then .error ⟨reservedClass cmd, cmd⟩
  else if opField cmd = 0x01 then .ok .init
  else if opField cmd = 0x02 then .ok .enable
  else if opField cmd = 0x03 then .ok .disable
  else if opField cmd = 0x05 then .ok .getcolor
  else .error ⟨reservedClass cmd, cmd⟩

/-- The opcode of a command (`30_encoding.md` R82). -/
def CommandName.opcode : CommandName → BitVec 8
  | .init => 0x01
  | .enable => 0x02
  | .disable => 0x03
  | .setcolor => 0x04
  | .getcolor => 0x05

/-- Format `C`: the opcode and the three operand bytes, the opcode most significant (`30_encoding.md` R81). -/
def formatC (op : BitVec 8) (r g b : Intensity) : Word := op ++ r ++ g ++ b

/-- The word of a command (`30_encoding.md` R82). -/
def encode (i : Instr) : Word :=
  match i with
  | .init => formatC CommandName.init.opcode 0 0 0
  | .enable => formatC CommandName.enable.opcode 0 0 0
  | .disable => formatC CommandName.disable.opcode 0 0 0
  | .setcolor r g b => formatC CommandName.setcolor.opcode r g b
  | .getcolor => formatC CommandName.getcolor.opcode 0 0 0

/-- One row of the opcode table (`30_encoding.md` R92): a word `w` selects it when `w & mask = pattern`. -/
structure OpcodeRow where
  name    : CommandName
  pattern : Word
  mask    : Word
deriving DecidableEq, Repr

/-- `w & mask == match` (`30_encoding.md` R92). -/
def OpcodeRow.selects (row : OpcodeRow) (w : Word) : Bool := w &&& row.mask == row.pattern

/-- The five rows of `opcode_table.json`. -/
def opcodeTable : List OpcodeRow :=
  [ ⟨.init, 0x01000000, 0xFFFFFFFF⟩,
    ⟨.enable, 0x02000000, 0xFFFFFFFF⟩,
    ⟨.disable, 0x03000000, 0xFFFFFFFF⟩,
    ⟨.setcolor, 0x04000000, 0xFF000000⟩,
    ⟨.getcolor, 0x05000000, 0xFFFFFFFF⟩ ]

/-- The command word whose bits are the low `nbits` bits of `w`, every other bit zero. A command is one 32-bit word on the
command port, so there is no byte to lay out (`20_memory.md` R61, R62). -/
def tableWord (nbits w : Nat) : Word := BitVec.ofNat 32 (w % 2 ^ nbits)

/-- The command the decoder reads from a word numbered as `opcode_table.json` numbers its bits. -/
def decodeTableWord (nbits w : Nat) : Option Instr :=
  match decode (tableWord nbits w) with
  | .ok i => some i
  | .error _ => none

end Sys2Proof
end

