-- ==== Sys2Proof/Machine/State.lean ====
section
/-! DEFINITION. The state of the PWM unit (`10_state.md` R20), the host agent that presents its inputs, the state after
reset, and the reasons a step can stop. -/

namespace Sys2Proof.Machine

/-- `LIFE`, the lifecycle state (`10_state.md` R24). It has no numeric encoding. -/
inductive Life
  | uninitialized
  | disabled
  | enabled
deriving DecidableEq, Repr

/-- `DIR_u`: the direction of the counter's next move (`10_state.md` R30). -/
inductive Dir
  | up
  | down
deriving DecidableEq, Repr

/-- `MODE_u`: the counting mode (`10_state.md` R28). -/
inductive CountMode
  | unconfigured
  | phaseCorrect
deriving DecidableEq, Repr

/-- A fault with its information, as `FAULT` holds it (`60_exceptions.md` R190 to R194). -/
inductive FaultMark
  /-- A command in a lifecycle state where it is misuse (R191). -/
  | lifecycleMisuse (cmd : CommandName) (life : Life)
  /-- A reserved command word (R192). -/
  | illegalCommand (cmd : Word)
  /-- `INIT` while `IE = 1` (R194). -/
  | initPreemptible
deriving DecidableEq, Repr

/-- The registers of one channel: `CMP_c`, `COM_c`, `LATCH_c`, `OE_c` (`10_state.md` R21, R25, R26, R27). -/
structure PwmChannel where
  cmp   : Count
  com   : Bool
  latch : Bool
  oe    : Bool
deriving DecidableEq, Repr

/-- The registers of one counter unit: `MODE_u`, `RUN_u`, `CNT_u`, `DIR_u` (`10_state.md` R28, R29, R30). -/
structure CounterUnit where
  mode : CountMode
  run  : Bool
  cnt  : Count
  dir  : Dir
deriving DecidableEq, Repr

/-- One move of one agent, the input of one step (`00_scope.md` R11, `30_encoding.md` R80). -/
inductive Move
  /-- The host presents a command word: `cmd_valid = 1`. -/
  | command (cmd : Word)
  /-- The counter tick. -/
  | tick
  /-- The host changes `IE` between two commands (`10_state.md` R31, `70_reset_and_hazards.md` R236). -/
  | hostSetsIe (ie : Bool)
  /-- `rst` is asserted, with the command or the tick that would have come with it and is discarded
  (`60_exceptions.md` R199). -/
  | rst (lostCommand : Option Word) (lostTick : Bool)
deriving DecidableEq, Repr

/-- The host agent and the interleaving of the agents: the list of moves, the index into it (`10_state.md` R44,
`70_reset_and_hazards.md` R234) and the response words the host has been given, oldest first (R235). -/
structure HostAgent where
  script    : List Move
  index     : Nat
  responses : List Word
deriving DecidableEq, Repr

/-- The state of the machine (`10_state.md` R20). `resp` is the response port in the step just done, `none` when
`resp_valid = 0` (`30_encoding.md` R87). `draw` is the model's own counter of free draws, advanced by every step
(notes/assumptions/7.md). -/
structure State where
  red     : PwmChannel
  green   : PwmChannel
  blue    : PwmChannel
  unitA   : CounterUnit
  unitB   : CounterUnit
  color   : Rgb
  life    : Life
  ie      : Bool
  savedIe : Bool
  fault   : Option FaultMark
  resp    : Option Word
  host    : HostAgent
  draw    : Nat
deriving DecidableEq, Repr

/-- Why the machine stops. -/
inductive Fault
  /-- A command presented while `FAULT` holds a mark: it "has no meaning" (`60_exceptions.md` R195, `42_lifecycle.md` R135,
  `93_implementation_defined.md` U15). Raised by every command and by a reserved word. Safe: the model stops where the
  hardware does something nobody describes. -/
  | commandInFaultedState (mark : FaultMark)
deriving DecidableEq, Repr

/-- Why the machine refuses. -/
inductive Refusal
  /-- A command without a meaning in this model, by its mnemonic. No command raises it: all five have their meaning. Safe. -/
  | notModelled (mnemonic : String)
deriving DecidableEq, Repr

/-- A channel's registers after reset. The spec gives them no value; these are the model's (DESIGN CHOICE,
notes/assumptions/3.md). -/
def PwmChannel.reset : PwmChannel := { cmp := 0, com := false, latch := false, oe := false }

/-- A counter's registers after reset: not running (`10_state.md` R40). The spec gives the other three no value; these are
the model's (DESIGN CHOICE, notes/assumptions/3.md). -/
def CounterUnit.reset : CounterUnit := { mode := .unconfigured, run := false, cnt := 0, dir := .up }

/-- The state right after reset (`10_state.md` R40, `70_reset_and_hazards.md` R221): `LIFE`, `COLOR`, `FAULT` and `RUN_u` as
the spec states, every other register at the value the log names (notes/assumptions/3.md, 4.md), the host's list empty
(notes/assumptions/2.md). -/
def State.reset : State :=
  { red := .reset, green := .reset, blue := .reset
    unitA := .reset, unitB := .reset
    color := 0, life := .uninitialized
    ie := false, savedIe := false
    fault := none, resp := none
    host := { script := [], index := 0, responses := [] }
    draw := 0 }

end Sys2Proof.Machine
end

