-- ==== Sys2Proof/Machine/Counters.lean ====
section
/-! DEFINITION. The two 16-bit up/down counters in phase-correct mode (`44_pwm_datapath.md` R170 to R174). -/

namespace Sys2Proof.Machine

/-- The triangle function (`44_pwm_datapath.md` R171): the count and the direction at a position. -/
def tri (n : Nat) : Count × Dir :=
  if n % Config.period < Config.top then (BitVec.ofNat 16 (n % Config.period), .up)
  else (BitVec.ofNat 16 (Config.period - n % Config.period), .down)

/-- The position of a count and a direction in the period (`00_scope.md` R14): the inverse of `tri` on its range. -/
def positionOf (cnt : Count) : Dir → Nat
  | .up => cnt.toNat
  | .down => Config.period - cnt.toNat

/-- The position of a counter (`10_state.md` R30). -/
def CounterUnit.position (u : CounterUnit) : Nat := positionOf u.cnt u.dir

/-- `TOP` as a count. -/
def topCount : Count := BitVec.ofNat 16 Config.top

/-- One counter's part of the tick (`44_pwm_datapath.md` R172): a counter that does not run, or is not configured, does not
move. -/
def CounterUnit.tick (u : CounterUnit) : CounterUnit :=
  if u.run = true ∧ u.mode = .phaseCorrect then
    match u.dir with
    | .up => { u with cnt := u.cnt + 1, dir := if u.cnt + 1 = topCount then .down else .up }
    | .down => { u with cnt := u.cnt - 1, dir := if u.cnt - 1 = 0 then .up else .down }
  else u

/-- A counter unit configured at a position: `configureCounter`'s writes (`41_primitives.md` R119). -/
def CounterUnit.configured (p : Nat) : CounterUnit :=
  { mode := .phaseCorrect, run := true, cnt := (tri p).1, dir := (tri p).2 }

end Sys2Proof.Machine
end

