-- ==== Sys2Proof/Machine/Operands.lean ====
section
/-! DEFINITION. The operand forms: a colour of three 8-bit intensities, its packing into 24 bits, and the gamma look-up an
intensity goes through (`30_encoding.md` R83, `10_state.md` R23, `40_gamma_lut.md` R100). -/

namespace Sys2Proof.Machine

/-- `{r, g, b}`, red most significant (`10_state.md` R23). -/
def packColor (r g b : Intensity) : Rgb := r ++ g ++ b

/-- `COLOR.c` for each channel: red 23:16, green 15:8, blue 7:0 (`10_state.md` R23). -/
def colorField (color : Rgb) : Channel → Intensity
  | .red => color.extractLsb' 16 8
  | .green => color.extractLsb' 8 8
  | .blue => color.extractLsb' 0 8

/-- `lookup(level) = GAMMA[level]` (`40_gamma_lut.md` R100): total, pure, the operand used unchanged as the index
(`43_color.md` R154). -/
def lookup (level : Intensity) : Count := Config.gamma.entry level

/-- `resp = {0x00, COLOR.r, COLOR.g, COLOR.b}` (`30_encoding.md` R87). -/
def responseWord (color : Rgb) : Word := (0 : BitVec 8) ++ color

end Sys2Proof.Machine
end

