-- ==== Sys2Proof/Machine/Ops.lean ====
section
/-! DEFINITION. The named operations the commands are built from: access by channel and unit, the micro-operations and the
critical section (`41_primitives.md`), the entry check of a command (`42_lifecycle.md` R135), raising a fault
(`60_exceptions.md` R193) and the response port (`30_encoding.md` R87). There is no return from a fault but reset
(`60_exceptions.md` R200, R201; `Agents.lean` has the reset step). -/

namespace Sys2Proof.Machine

/-- The registers of channel `c`. -/
def State.channel (s : State) : Channel → PwmChannel
  | .red => s.red
  | .green => s.green
  | .blue => s.blue

/-- `s` with the registers of channel `c` replaced. -/
def State.setChannel (s : State) (c : Channel) (v : PwmChannel) : State :=
  match c with
  | .red => { s with red := v }
  | .green => { s with green := v }
  | .blue => { s with blue := v }

/-- The registers of counter unit `u`. -/
def State.counter (s : State) : UnitId → CounterUnit
  | .a => s.unitA
  | .b => s.unitB

/-- `s` with the registers of counter unit `u` replaced. -/
def State.setCounter (s : State) (u : UnitId) (v : CounterUnit) : State :=
  match u with
  | .a => { s with unitA := v }
  | .b => { s with unitB := v }

/-- `maskInterrupts()` (`41_primitives.md` R111). -/
def maskInterrupts (s : State) : State := { s with savedIe := s.ie, ie := false }

/-- `restoreInterrupts()` (`41_primitives.md` R112): the saved value, never the constant 1. -/
def restoreInterrupts (s : State) : State := { s with ie := s.savedIe }

/-- `CriticalSection(body)` (`41_primitives.md` R110). -/
def criticalSection (body : State → State) (s : State) : State := restoreInterrupts (body (maskInterrupts s))

/-- `connectChannel(c)` (`41_primitives.md` R114). -/
def connectChannel (c : Channel) (s : State) : State := s.setChannel c { s.channel c with com := true }

/-- `disconnectChannel(c)` (`41_primitives.md` R115). -/
def disconnectChannel (c : Channel) (s : State) : State := s.setChannel c { s.channel c with com := false }

/-- `writeCompare(c, v)` (`41_primitives.md` R116): no buffer register stands between the write and the comparator. -/
def writeCompare (c : Channel) (v : Count) (s : State) : State := s.setChannel c { s.channel c with cmp := v }

/-- `setPinLevel(c, l)` (`41_primitives.md` R117). -/
def setPinLevel (c : Channel) (l : Bool) (s : State) : State := s.setChannel c { s.channel c with latch := l }

/-- `setPinOutput(c)` (`41_primitives.md` R118). -/
def setPinOutput (c : Channel) (s : State) : State := s.setChannel c { s.channel c with oe := true }

/-- `configureCounter(u, p)` (`41_primitives.md` R119). -/
def configureCounter (u : UnitId) (p : Nat) (s : State) : State := s.setCounter u (.configured p)

/-- `for c in {R, G, B}: op(c)`, red first. -/
def forEachChannel (op : Channel → State → State) (s : State) : State := op .blue (op .green (op .red s))

/-- The end of a step that presents no response: `resp_valid = 0` (`30_encoding.md` R87). -/
def noResponse (s : State) : State := { s with resp := none }

/-- The end of a step that presents a response, which the host takes in the same step (`30_encoding.md` R80, R87). -/
def respond (w : Word) (s : State) : State :=
  { s with resp := some w, host := { s.host with responses := s.host.responses ++ [w] } }

/-- `raise Fault(name, info)` (`60_exceptions.md` R193): the mark is recorded, nothing else is written, no response is
driven. This is all there is of taking an exception (`60_exceptions.md` R200). -/
def raiseFault (mark : FaultMark) (s : State) : Host.Outcome State Fault Refusal :=
  .next (noResponse { s with fault := some mark })

/-- The first entry check of every command (`42_lifecycle.md` R135 (1)): in a faulted state a command has no meaning and the
machine stops (`60_exceptions.md` R195). -/
def unlessFaulted (s : State) (go : Host.Outcome State Fault Refusal) : Host.Outcome State Fault Refusal :=
  match s.fault with
  | some mark => .fault (.commandInFaultedState mark)
  | none => go

/-- The legality table of `42_lifecycle.md` R130, without `INIT`'s condition on `IE`. -/
def legalIn : CommandName → Life → Bool
  | .init, life => life == .uninitialized
  | .enable, life | .disable, life | .setcolor, life | .getcolor, life => life != .uninitialized

/-- The entry checks (1) and (3) of `42_lifecycle.md` R135, then the command's own effect. -/
def beginCommand (cmd : CommandName) (s : State) (go : Host.Outcome State Fault Refusal) :
    Host.Outcome State Fault Refusal :=
  unlessFaulted s (if legalIn cmd s.life then go else raiseFault (.lifecycleMisuse cmd s.life) s)

/-- A reserved word (`42_lifecycle.md` R135 (1) and (2), `60_exceptions.md` R192). -/
def illegalCommand (cmd : Word) (s : State) : Host.Outcome State Fault Refusal :=
  unlessFaulted s (raiseFault (.illegalCommand cmd) s)

end Sys2Proof.Machine
end

