-- ==== Sys2Proof/Machine/Color.lean ====
section
/-! DEFINITION. The colour commands `SETCOLOR`, `GETCOLOR` (`43_color.md`). -/

namespace Sys2Proof.Machine

/-- `COLOR <- {r, g, b}`, a write inside `SETCOLOR`'s critical section (`43_color.md` R150). -/
def writeColor (r g b : Intensity) (s : State) : State := { s with color := packColor r g b }

/-- `SETCOLOR`'s writes (`43_color.md` R150): the cache and the three compare registers, each from its own operand. -/
def setcolorWrites (r g b : Intensity) (s : State) : State :=
  criticalSection
    (fun t => writeCompare .blue (lookup b) (writeCompare .green (lookup g) (writeCompare .red (lookup r)
      (writeColor r g b t)))) s

/-- `SETCOLOR r, g, b` (`43_color.md` R150). -/
def execSetcolor (r g b : Intensity) (s : State) : Host.Outcome State Fault Refusal :=
  beginCommand .setcolor s (.next (noResponse (setcolorWrites r g b s)))

/-- `GETCOLOR` (`43_color.md` R151): a response and no register written. -/
def execGetcolor (s : State) : Host.Outcome State Fault Refusal :=
  beginCommand .getcolor s (.next (respond (responseWord s.color) s))

end Sys2Proof.Machine
end

