-- ==== Sys2Proof/Machine/Lifecycle.lean ====
section
/-! DEFINITION. The lifecycle commands `INIT`, `ENABLE`, `DISABLE` (`42_lifecycle.md`). -/

namespace Sys2Proof.Machine

/-- `INIT`'s writes, in the order of `42_lifecycle.md` R131; no critical section. -/
def initWrites (s : State) : State :=
  let s1 := configureCounter .b Config.phaseB0.val (configureCounter .a 0 s)
  let s2 := forEachChannel (fun c => writeCompare c 0) (forEachChannel disconnectChannel s1)
  let s3 := forEachChannel setPinOutput (forEachChannel (fun c => setPinLevel c true) s2)
  { s3 with life := .disabled }

/-- `INIT` (`42_lifecycle.md` R131). -/
def execInit (s : State) : Host.Outcome State Fault Refusal :=
  beginCommand .init s (if s.ie then raiseFault .initPreemptible s else .next (noResponse (initWrites s)))

/-- `ENABLE`'s writes (`42_lifecycle.md` R132). -/
def enableWrites (s : State) : State :=
  { criticalSection (forEachChannel connectChannel) s with life := .enabled }

/-- `ENABLE` (`42_lifecycle.md` R132). -/
def execEnable (s : State) : Host.Outcome State Fault Refusal :=
  beginCommand .enable s (.next (noResponse (enableWrites s)))

/-- `DISABLE`'s writes (`42_lifecycle.md` R133). -/
def disableWrites (s : State) : State :=
  { criticalSection (fun t => forEachChannel (fun c => setPinLevel c true) (forEachChannel disconnectChannel t)) s with
    life := .disabled }

/-- `DISABLE` (`42_lifecycle.md` R133). -/
def execDisable (s : State) : Host.Outcome State Fault Refusal :=
  beginCommand .disable s (.next (noResponse (disableWrites s)))

end Sys2Proof.Machine
end

