-- ==== Sys2Proof/Machine/Agents.lean ====
section
/-! DEFINITION. One move of each agent (`00_scope.md` R11) and the choice of the next one from the host agent's list
(`10_state.md` R44, `70_reset_and_hazards.md` R234). -/

namespace Sys2Proof.Machine

/-- The command executor's step on a presented word: decode, then execute, or the fault of a reserved word
(`42_lifecycle.md` R135). -/
def commandStep (cmd : Word) (s : State) : Host.Outcome State Fault Refusal :=
  match decode cmd with
  | .ok i => exec i s
  | .error _ => illegalCommand cmd s

/-- The tick: both counters in the same step, and nothing else (`44_pwm_datapath.md` R172). -/
def tickStep (s : State) : State := noResponse { s with unitA := s.unitA.tick, unitB := s.unitB.tick }

/-- The host changes `IE` (`10_state.md` R31). -/
def hostSetsIeStep (ie : Bool) (s : State) : State := noResponse { s with ie := ie }

/-- Reset (`70_reset_and_hazards.md` R220): every register of the unit at its value after reset, whatever was there, the fault
mark discarded. The host agent is not the unit's, and neither is `IE`, which only `maskInterrupts` and
`restoreInterrupts` touch (`41_primitives.md` R121; notes/assumptions/4.md). -/
def resetStep (s : State) : State := { State.reset with host := s.host, ie := s.ie, draw := s.draw }

/-- One move of one agent. A reset discards the command or the tick that would have come with it (`60_exceptions.md` R199). -/
def moveStep (m : Move) (s : State) : Host.Outcome State Fault Refusal :=
  match m with
  | .command cmd => commandStep cmd s
  | .tick => .next (tickStep s)
  | .hostSetsIe ie => .next (hostSetsIeStep ie s)
  | .rst _ _ => .next (resetStep s)

/-- The move that comes next: the one at the index, and after the last one only ticks, since the counters run on
(`70_reset_and_hazards.md` R234; notes/assumptions/1.md). -/
def nextMove (s : State) : Move := (s.host.script[s.host.index]?).getD .tick

/-- The host agent after its move at the index: after move `i` comes move `i + 1`, after the last nothing
(`10_state.md` R44). -/
def HostAgent.advance (h : HostAgent) : HostAgent :=
  { h with index := if h.index < h.script.length then h.index + 1 else h.index }

/-- The state in which the chosen move is made: the host's index moved on and a fresh number for free draws. -/
def takeMove (s : State) : State := { s with host := s.host.advance, draw := s.draw + 1 }

/-- The host agent with one more move, standing where the next one is taken. -/
def HostAgent.insertNext (h : HostAgent) (m : Move) : HostAgent :=
  { h with
    script := h.script.take h.index ++ m :: h.script.drop h.index
    index := min h.index h.script.length }

end Sys2Proof.Machine
end

