-- ==== Sys2Proof/Machine/Step.lean ====
section
/-! DEFINITION. One step of the machine: one move of one agent (`00_scope.md` R11, R14). -/

namespace Sys2Proof.Machine

/-- One step: the next move of the list is taken and made. -/
def step (s : State) : Host.Outcome State Fault Refusal := moveStep (nextMove s) (takeMove s)

/-- `s` with a command word standing where the step takes its next move. The unit fetches nothing (`10_state.md` R44); the
host presents the word (notes/assumptions/2.md). -/
def State.withFetchWord (s : State) (nbits w : Nat) : State :=
  { s with host := s.host.insertNext (.command (tableWord nbits w)) }

end Sys2Proof.Machine
end

