-- ==== Sys2Proof/Machine/Listing.lean ====
section
/-! DEFINITION. The text of a listing (`30_encoding.md` R89): one command a line, mnemonics in upper case, `;` before a
comment, operands decimal or with `0x`; and the response a listing shows after `GETCOLOR`. Text is a list of characters.
Notation only: no command depends on it (decision D22). How blanks may stand, and that a blank line is no command, is the
model's (notes/assumptions/20.md); so is that a response may stand in a comment or outside one (notes/assumptions/22.md). -/

namespace Sys2Proof.Machine

/-- The two ways R89 writes a number. -/
inductive Radix
  | decimal
  | hexadecimal
deriving DecidableEq, Repr

/-- How many digits a radix has. -/
def Radix.size : Radix → Nat
  | .decimal => 10
  | .hexadecimal => 16

/-- The digits of both radices, least first: a digit's value is its place. A radix uses the first `size` of them. -/
def digitChars : List Char := "0123456789ABCDEF".toList

/-- The value of a digit: the place of its capital form among the digits of the radix. -/
def Radix.digit (radix : Radix) (c : Char) : Option Nat := (digitChars.take radix.size).idxOf? c.toUpper

/-- The value of a text whose every character is a digit of the radix, the first most significant. -/
def Radix.value (radix : Radix) (text : List Char) : Option Nat :=
  text.foldlM (fun high c => (radix.digit c).map (fun low => radix.size * high + low)) 0

/-- An unsigned number of at least one digit, hexadecimal after `0x` and decimal otherwise (R89). -/
def parseNumber (text : List Char) : Option Nat :=
  let hex := ['0', 'x'].isPrefixOf text
  let digits := if hex then text.drop 2 else text
  if digits.isEmpty then none else (if hex then Radix.hexadecimal else Radix.decimal).value digits

/-- A line without its comment. -/
def stripComment (line : List Char) : List Char := line.takeWhile (· ≠ ';')

/-- A text without the blanks at its two ends. -/
def trimBlanks (cs : List Char) : List Char :=
  ((cs.dropWhile (· = ' ')).reverse.dropWhile (· = ' ')).reverse

/-- The operand texts between commas. -/
def splitCommas : List Char → List (List Char)
  | [] => [[]]
  | c :: cs =>
    match splitCommas cs with
    | [] => [[c]]
    | part :: parts => if c = ',' then [] :: part :: parts else (c :: part) :: parts

/-- The operands of a line, all of them numbers. -/
def parseOperands (cs : List Char) : Option (List Nat) :=
  if trimBlanks cs = [] then some [] else (splitCommas cs).mapM (fun part => parseNumber (trimBlanks part))

/-- A mnemonic with its operands. -/
def lineCommand (mnemonic : List Char) (operands : List Nat) : Option AsmCommand :=
  if mnemonic = ['I', 'N', 'I', 'T'] ∧ operands = [] then some .init
  else if mnemonic = ['E', 'N', 'A', 'B', 'L', 'E'] ∧ operands = [] then some .enable
  else if mnemonic = ['D', 'I', 'S', 'A', 'B', 'L', 'E'] ∧ operands = [] then some .disable
  else if mnemonic = ['G', 'E', 'T', 'C', 'O', 'L', 'O', 'R'] ∧ operands = [] then some .getcolor
  else if mnemonic = ['S', 'E', 'T', 'C', 'O', 'L', 'O', 'R'] then
    match operands with
    | [r, g, b] => some (.setcolor r g b)
    | _ => none
  else none

/-- Whether a text is a response as R89 shows it, `-> (r, g, b)` with three numbers `0 .. 255`. -/
def isShownResponse (text : List Char) : Bool :=
  match trimBlanks text with
  | '-' :: '>' :: shown =>
    match trimBlanks shown with
    | '(' :: inner =>
      inner.getLast? == some ')' &&
        (match parseOperands inner.dropLast with
          | some [r, g, b] => operandInRange r && operandInRange g && operandInRange b
          | _ => false)
    | _ => false
  | _ => false

/-- What follows the mnemonic on a line, without the response a listing may show after `GETCOLOR` (R89). R89 does not say
whether the response stands in a comment, as in `95_test_vectors.md` P1, or outside: the model reads both (DESIGN CHOICE,
notes/assumptions/22.md). -/
def withoutShownResponse (mnemonic rest : List Char) : List Char :=
  if mnemonic = ['G', 'E', 'T', 'C', 'O', 'L', 'O', 'R'] ∧ isShownResponse rest = true then [] else rest

/-- One line of a listing: no command (`some none`), a command (`some (some c)`), or an assembly error (`none`). -/
def parseLine (line : List Char) : Option (Option AsmCommand) :=
  let text := trimBlanks (stripComment line)
  let mnemonic := text.takeWhile (· ≠ ' ')
  if text = [] then some none
  else
    match parseOperands (withoutShownResponse mnemonic (text.dropWhile (· ≠ ' '))) with
    | some operands => (lineCommand mnemonic operands).map some
    | none => none

/-- The commands of a listing, in its order; `none` when a line is an assembly error, an operand outside `0 .. 255` among
them. -/
def assembleListing (lines : List (List Char)) : Option (List Instr) :=
  match lines with
  | [] => some []
  | line :: rest =>
    match parseLine line, assembleListing rest with
    | some none, some is => some is
    | some (some c), some is => c.assemble.map (· :: is)
    | _, _ => none

/-- `-> (r, g, b)`: how a listing shows a response word. -/
def showResponse (w : Word) : List Char :=
  let field (lo : Nat) := Nat.toDigits 10 (w.extractLsb' lo 8).toNat
  ['-', '>', ' ', '('] ++ field 16 ++ [',', ' '] ++ field 8 ++ [',', ' '] ++ field 0 ++ [')']

end Sys2Proof.Machine
end

