-- ==== Sys2Proof/Machine/Flags.lean ====
section
/-! DEFINITION. The unit has no status flags and no condition codes (`10_state.md` R39). Its only computed 1-bit values are
the comparators' outputs, which are functions of the present state and are stored nowhere (`44_pwm_datapath.md` R175). -/

namespace Sys2Proof.Machine

/-- `ACTIVE_c` from a count, a direction and a compare value (`44_pwm_datapath.md` R175); both comparisons are unsigned. -/
def activeAt (cnt : Count) (dir : Dir) (cmp : Count) : Bool :=
  decide (cnt < cmp) || (cnt == cmp && dir == .down)

end Sys2Proof.Machine
end

