-- ==== Sys2Proof/Machine/Pins.lean ====
section
/-! DEFINITION. The outputs that are functions of the state: the comparators, the pin drivers, the LEDs and the response port
(`44_pwm_datapath.md` R175 to R178, `10_state.md` R34, `30_encoding.md` R80). -/

namespace Sys2Proof.Machine

/-- `ACTIVE_c`, from the channel's compare register and its unit's counter (`44_pwm_datapath.md` R175). -/
def active (s : State) (c : Channel) : Bool :=
  activeAt (s.counter c.unit).cnt (s.counter c.unit).dir (s.channel c).cmp

/-- The pin driver (`44_pwm_datapath.md` R177), active-low. -/
def driverLevel (ch : PwmChannel) (isActive : Bool) : PinLevel :=
  if ch.oe = false then .z
  else if ch.com = true then (if isActive then .low else .high)
  else if ch.latch then .high else .low

/-- `PIN_c`: the driver's level, and before `INIT` a free draw of the three levels (`44_pwm_datapath.md` R178). -/
def pinLevel (s : State) (c : Channel) : PinLevel :=
  if s.life = .uninitialized then Config.freePin s.draw c else driverLevel (s.channel c) (active s c)

/-- Whether the LED of channel `c` is lit: exactly when its pin is driven low (`44_pwm_datapath.md` R177). What it does while
the pin is not driven is a free value (`93_implementation_defined.md` U13). -/
def ledLit (s : State) (c : Channel) : Bool :=
  match pinLevel s c with
  | .low => true
  | .high => false
  | .z => Config.freeLed s.draw c

/-- `resp_valid` (`30_encoding.md` R80). -/
def respValid (s : State) : Bool := s.resp.isSome

/-- `resp[31:0]` (`30_encoding.md` R80): a free value while `resp_valid = 0` (`30_encoding.md` R87). -/
def respBits (s : State) : Word := s.resp.getD (Config.freeResp s.draw)

end Sys2Proof.Machine
end

