-- ==== Sys2Proof/Safety.lean ====
section
/-! DEFINITION. The terms claims about runs use: unfaulted, initialised, the register invariant of `10_state.md` R36, and runs
without a fault (`60_exceptions.md` R195, `70_reset_and_hazards.md` R234). -/

namespace Sys2Proof.Safety

open Sys2Proof.Machine

/-- `LIFE` in `{Disabled, Enabled}`. -/
def Initialised (s : State) : Prop := s.life ≠ .uninitialized

/-- The invariant of `10_state.md` R36, parts (a) to (e), on the registers of one state. -/
structure RegistersConsistent (s : State) : Prop where
  /-- (a): before `INIT` the colour is black and the counters do not run. -/
  beforeInit : s.life = .uninitialized → s.color = 0 ∧ s.unitA.run = false ∧ s.unitB.run = false
  /-- (b): after `INIT` both counters are configured and running. -/
  running : Initialised s → ∀ u, (s.counter u).mode = .phaseCorrect ∧ (s.counter u).run = true
  /-- (b): after `INIT` the pins are outputs and every latch is at the inactive level. -/
  outputs : Initialised s → ∀ c, (s.channel c).oe = true ∧ (s.channel c).latch = true
  /-- (b): after `INIT` every compare register holds the table's value of the cached colour. -/
  compares : Initialised s → ∀ c, (s.channel c).cmp = lookup (colorField s.color c)
  /-- (c): all three connect bits are 0 when disabled. -/
  disconnected : s.life = .disabled → ∀ c, (s.channel c).com = false
  /-- (c): all three connect bits are 1 when enabled. -/
  connected : s.life = .enabled → ∀ c, (s.channel c).com = true
  /-- (d): the relative phase of the counters. -/
  phase : Initialised s → s.unitB.position = (s.unitA.position + Config.phaseB0.val) % Config.period
  /-- (e): the direction at the top and at the bottom. -/
  turns : Initialised s → ∀ u,
    ((s.counter u).cnt = topCount → (s.counter u).dir = .down) ∧ ((s.counter u).cnt = 0 → (s.counter u).dir = .up)

/-- `10_state.md` R36: consistent in every state with `FAULT = none`. Nothing is said of a faulted state
(`60_exceptions.md` R195). -/
def Consistent (s : State) : Prop := s.fault = none → RegistersConsistent s

/-- The host's index never passes the end of its list (`10_state.md` R44). -/
def HostInRange (s : State) : Prop := s.host.index ≤ s.host.script.length

/-- `n` steps from `s` to `t`, none of them from or to a faulted state (`60_exceptions.md` R195). -/
def FaultFreeRun : Nat → State → State → Prop
  | 0, s, t => s.fault = none ∧ t = s
  | n + 1, s, t => s.fault = none ∧ ∃ u, step s = .next u ∧ FaultFreeRun n u t

/-- The moves of a run from `s`: the first `n` moves the host's list still holds. -/
def upcoming (n : Nat) (s : State) : List Move := (s.host.script.drop s.host.index).take n

end Sys2Proof.Safety
end

