-- ==== Sys2Proof/Certificates/Slice0/Obligations.lean ====
section
/-! DEFINITION. The statements for the provers. Each docstring names the rule of spec/ it comes from. -/

open Sys2Proof Sys2Proof.Machine Sys2Proof.Safety

/-! ### Encoding -/

/-- `30_encoding.md` R91: the worked encodings, the reserved words and the response to `GETCOLOR` when
`COLOR = (128, 0, 255)`. -/
def Obligations.WorkedEncodingsDecode : Prop :=
  (encode .init = 0x01000000 ∧ decode 0x01000000 = .ok .init)
  ∧ (encode .enable = 0x02000000 ∧ decode 0x02000000 = .ok .enable)
  ∧ (encode .disable = 0x03000000 ∧ decode 0x03000000 = .ok .disable)
  ∧ (encode .getcolor = 0x05000000 ∧ decode 0x05000000 = .ok .getcolor)
  ∧ (encode (.setcolor 0 0 0) = 0x04000000 ∧ decode 0x04000000 = .ok (.setcolor 0 0 0))
  ∧ (encode (.setcolor 255 255 255) = 0x04FFFFFF ∧ decode 0x04FFFFFF = .ok (.setcolor 255 255 255))
  ∧ (encode (.setcolor 128 0 255) = 0x048000FF ∧ decode 0x048000FF = .ok (.setcolor 128 0 255))
  ∧ (encode (.setcolor 1 2 3) = 0x04010203 ∧ decode 0x04010203 = .ok (.setcolor 1 2 3))
  ∧ (∀ w ∈ [(0x00000000 : Word), 0x01000001, 0x05FFFFFF, 0x06000000, 0xFFFFFFFF], ∃ r, decode w = .error r)
  ∧ (∀ s : State, s.fault = none → Initialised s → s.color = packColor 128 0 255 →
      ∃ t, exec .getcolor s = .next t ∧ t.resp = some 0x008000FF)

/-- `30_encoding.md` R88: encoding is the inverse of decoding, in both directions, for every command with every operand. -/
def Obligations.DecodeAndEncodeAreInverse : Prop :=
  (∀ i : Instr, decode (encode i) = .ok i) ∧ (∀ (w : Word) (i : Instr), decode w = .ok i → encode i = w)

/-- `30_encoding.md` R84 and R85: the reserved words are exactly the three classes of R85. In particular a zero-operand
opcode with any of `cmd[23:0]` set is reserved (R84), and with none set it is the command. The clauses on `r.why` are about
the model's own names of the classes, where R88 has one `Reserved(cmd)` (DESIGN CHOICE, notes/assumptions/21.md). -/
def Obligations.ReservedWordsAreTheThreeClasses : Prop :=
  ∀ w : Word,
    ((∃ r, decode w = .error r) ↔
      (opField w = 0x00 ∨ 0x06 ≤ opField w
        ∨ ((opField w = 0x01 ∨ opField w = 0x02 ∨ opField w = 0x03 ∨ opField w = 0x05) ∧ operandBits w ≠ 0)))
    ∧ (∀ r, decode w = .error r → r.cmd = w
        ∧ (r.why = .opcodeZero ↔ opField w = 0x00)
        ∧ (r.why = .opcodeUndefined ↔ 0x06 ≤ opField w)
        ∧ (r.why = .operandBitsSet ↔ opField w ≠ 0x00 ∧ opField w < 0x06))

/-- `30_encoding.md` R92: the five rows of the opcode table are disjoint, a word that selects a row decodes to that row's
command, a word that decodes to a command selects that command's row, and a word that selects no row is reserved. -/
def Obligations.OpcodeTableRowsDecideTheCommand : Prop :=
  opcodeTable.length = 5
  ∧ ∀ w : Word,
    (∀ a ∈ opcodeTable, ∀ b ∈ opcodeTable, a.selects w = true → b.selects w = true → a = b)
    ∧ (∀ a ∈ opcodeTable, a.selects w = true → ∃ i, decode w = .ok i ∧ i.name = a.name)
    ∧ (∀ i, decode w = .ok i → ∃ a ∈ opcodeTable, a.selects w = true ∧ a.name = i.name)
    ∧ ((∀ a ∈ opcodeTable, a.selects w = false) → ∃ r, decode w = .error r)

/-- `30_encoding.md` R89: a listing's command is an assembly error exactly when an operand lies outside `0 .. 255`; any other
is the command with those operands. -/
def Obligations.ListingOperandOutOfRangeIsError : Prop :=
  (∀ r g b : Nat, (AsmCommand.setcolor r g b).assemble = none ↔ (255 < r ∨ 255 < g ∨ 255 < b))
  ∧ (∀ r g b : Nat, r ≤ 255 → g ≤ 255 → b ≤ 255 →
      ∃ r' g' b' : Intensity, (AsmCommand.setcolor r g b).assemble = some (.setcolor r' g' b')
        ∧ r'.toNat = r ∧ g'.toNat = g ∧ b'.toNat = b)
  ∧ AsmCommand.init.assemble = some .init ∧ AsmCommand.enable.assemble = some .enable
  ∧ AsmCommand.disable.assemble = some .disable ∧ AsmCommand.getcolor.assemble = some .getcolor

/-- `00_scope.md` R6, R7 and `70_reset_and_hazards.md` R227: a configuration is accepted exactly when it is a 16-bit timer with a
phase inside the period and 256 entries that are those of a gamma table with the four properties. That the refusal is a
check before the machine exists is the model's form (notes/assumptions/19.md). -/
def Obligations.AcceptedConfigurationHasTheFourProperties : Prop :=
  ∀ c : ConfigCandidate, c.wf = true ↔
    c.timerWidth = 16 ∧ c.phaseB0 < 131070 ∧ c.table.length = 256
    ∧ ∃ g : Config.GammaTable, ∀ i : Intensity, c.table[i.toNat]? = some (g.entry i).toNat

/-! ### Steps -/

/-- `42_lifecycle.md` R135: a step whose move is a command word that decodes to `i` is `exec i`, in the state in which the
host's index is moved on and a fresh number for free draws is taken (the last two are the model's, notes/assumptions/1.md
and 7.md). -/
def Obligations.CommandStepRunsTheDecodedCommand : Prop :=
  ∀ (s : State) (w : Word) (i : Instr),
    s.host.script[s.host.index]? = some (.command w) → decode w = .ok i →
      step s = exec i (takeMove s)
      ∧ takeMove s = { s with host := { s.host with index := s.host.index + 1 }, draw := s.draw + 1 }

/-- The model's own loading of a command word (notes/assumptions/2.md): the very next step runs the word's command, no
register differs, and the moves the host still had come after it. -/
def Obligations.PlacedWordRunsNext : Prop :=
  ∀ (s : State) (nbits w : Nat) (i : Instr),
    decodeTableWord nbits w = some i →
      step (s.withFetchWord nbits w) = exec i (takeMove (s.withFetchWord nbits w))
      ∧ s.withFetchWord nbits w = { s with host := (s.withFetchWord nbits w).host }
      ∧ (takeMove (s.withFetchWord nbits w)).host.script.drop (takeMove (s.withFetchWord nbits w)).host.index
          = s.host.script.drop s.host.index

/-- `60_exceptions.md` R192, R193: a reserved command word raises `IllegalCommand` with the 32-bit word, and no register is
written. That the host's index and the draw counter move on with the step is the model's (DESIGN CHOICE,
notes/assumptions/1.md, 7.md). -/
def Obligations.ReservedWordMarksIllegalCommand : Prop :=
  ∀ (s : State) (w : Word) (r : ReservedWord),
    nextMove s = .command w → decode w = .error r → s.fault = none →
      step s = .next { takeMove s with fault := some (.illegalCommand w), resp := none }

/-- `70_reset_and_hazards.md` R220 and `60_exceptions.md` R199: a reset step gives the state after reset whatever was there,
whatever command or tick would have come with it, and clears the fault mark. That the host agent, `IE` and the draw counter
stay (the index and the counter moved on as in every step), and the values of the registers the spec gives no reset value,
are the model's (notes/assumptions/1.md, 3.md, 4.md, 7.md, 12.md). -/
def Obligations.ResetDiscardsWhateverWasThere : Prop :=
  ∀ (s : State) (lost : Option Word) (lostTick : Bool), nextMove s = .rst lost lostTick →
    step s = .next { State.reset with host := s.host.advance, ie := s.ie, draw := s.draw + 1 }

/-- `10_state.md` R40: the values the spec states for reset, and nothing it does not state. -/
def Obligations.ResetHasTheStatedValues : Prop :=
  State.reset.life = .uninitialized
  ∧ (∀ c, colorField State.reset.color c = 0)
  ∧ State.reset.fault = none
  ∧ State.reset.unitA.run = false ∧ State.reset.unitB.run = false

/-- `10_state.md` R44: the index stays within the list, and after move `i` comes move `i + 1`. The form of the list is the
model's (notes/assumptions/1.md). -/
def Obligations.HostIndexStaysInTheList : Prop :=
  HostInRange State.reset
  ∧ ∀ s t : State, HostInRange s → step s = .next t →
      HostInRange t ∧ t.host.script = s.host.script
      ∧ t.host.index = (if s.host.index < s.host.script.length then s.host.index + 1 else s.host.index)

/-- The free-draw counter (the model's own, notes/assumptions/7.md) influences no register, no response and no move. -/
def Obligations.DrawCounterInfluencesNoRegister : Prop :=
  ∀ (s t : State) (d : Nat), step s = .next t → step { s with draw := d } = .next { t with draw := d + 1 }

/-! ### The lifecycle commands -/

/-- `42_lifecycle.md` R130: the legality table. A misuse entry records `LifecycleMisuse` with the command and `LIFE`
(`60_exceptions.md` R191) and writes nothing else; a legal entry runs and leaves `FAULT = none` (`INIT` if `IE = 0`); a "legal,
no change" entry leaves every register as it was in a state that meets `10_state.md` R36 (`SAVED_IE`, dead between commands,
takes the value of `IE`: that the model keeps it, and so lets it change here, is its choice, DESIGN CHOICE,
notes/assumptions/11.md). -/
def Obligations.LegalityTableDecidesMisuse : Prop :=
  ∀ (i : Instr) (s : State), s.fault = none →
    (((s.life = .uninitialized ∧ i.name = .init ∧ s.ie = false) ∨ (s.life ≠ .uninitialized ∧ i.name ≠ .init)) →
      ∃ t, exec i s = .next t ∧ t.fault = none)
    ∧ (((s.life = .uninitialized ∧ i.name ≠ .init) ∨ (s.life ≠ .uninitialized ∧ i.name = .init)) →
        exec i s = .next { s with fault := some (.lifecycleMisuse i.name s.life), resp := none })
    ∧ (RegistersConsistent s →
        ((s.life = .enabled ∧ i = .enable) ∨ (s.life = .disabled ∧ i = .disable)) →
          exec i s = .next { s with savedIe := s.ie, resp := none })

/-- `42_lifecycle.md` R131: `INIT` from `Uninitialized` with `IE = 0`: every register it writes, and no other. -/
def Obligations.InitConfiguresTheUnit : Prop :=
  ∀ s : State, s.fault = none → s.life = .uninitialized → s.ie = false →
    exec .init s = .next
      { s with
        unitA := { mode := .phaseCorrect, run := true, cnt := 0, dir := .up }
        unitB := { mode := .phaseCorrect, run := true, cnt := (tri Config.phaseB0.val).1, dir := (tri Config.phaseB0.val).2 }
        red := { cmp := 0, com := false, latch := true, oe := true }
        green := { cmp := 0, com := false, latch := true, oe := true }
        blue := { cmp := 0, com := false, latch := true, oe := true }
        life := .disabled
        resp := none }

/-- `42_lifecycle.md` R131, corner cases: after `INIT` all three pins are high whatever the counters do, and a colour that is
still black agrees with the zeroed compare registers. -/
def Obligations.InitLeavesEveryPinHigh : Prop :=
  ∀ s : State, s.fault = none → s.life = .uninitialized → s.ie = false →
    ∃ t, exec .init s = .next t
      ∧ (∀ (a b : CounterUnit) (c : Channel), pinLevel { t with unitA := a, unitB := b } c = .high)
      ∧ (s.color = 0 → ∀ c, (t.channel c).cmp = 0 ∧ lookup (colorField t.color c) = 0)

/-- `60_exceptions.md` R194: `INIT` when `IE = 1` raises `InitPreemptible`, with no information, and writes nothing else. -/
def Obligations.InitWithInterruptsOnIsMarked : Prop :=
  ∀ s : State, s.fault = none → s.life = .uninitialized → s.ie = true →
    exec .init s = .next { s with fault := some .initPreemptible, resp := none }

/-- `42_lifecycle.md` R132: `ENABLE` in `Disabled` or `Enabled` connects the three channels, and changes nothing else; `IE` ends
as it began. `SAVED_IE` holds the value saved on entry (`41_primitives.md` R111). -/
def Obligations.EnableConnectsAllChannels : Prop :=
  ∀ s : State, s.fault = none → (s.life = .disabled ∨ s.life = .enabled) →
    exec .enable s = .next
      { s with
        red := { s.red with com := true }
        green := { s.green with com := true }
        blue := { s.blue with com := true }
        savedIe := s.ie
        life := .enabled
        resp := none }

/-- `42_lifecycle.md` R133: `DISABLE` in `Enabled` or `Disabled` disconnects the three channels and puts the latches at the
inactive level, and changes nothing else: the counters, the compare registers and the colour stay. -/
def Obligations.DisableDisconnectsAllChannels : Prop :=
  ∀ s : State, s.fault = none → (s.life = .disabled ∨ s.life = .enabled) →
    exec .disable s = .next
      { s with
        red := { s.red with com := false, latch := true }
        green := { s.green with com := false, latch := true }
        blue := { s.blue with com := false, latch := true }
        savedIe := s.ie
        life := .disabled
        resp := none }

/-- `70_reset_and_hazards.md` R231: `ENABLE` shows what the compare registers hold: the pins follow the cached colour from its
own step, and stay high if the colour is black. -/
def Obligations.EnableShowsTheStoredColour : Prop :=
  ∀ s : State, s.fault = none → Initialised s → RegistersConsistent s →
    ∃ t, exec .enable s = .next t
      ∧ (∀ c, pinLevel t c = if activeAt (s.counter c.unit).cnt (s.counter c.unit).dir (lookup (colorField s.color c))
          then .low else .high)
      ∧ (s.color = 0 → ∀ c, pinLevel t c = .high)

/-- `10_state.md` R24, `42_lifecycle.md` R134: what `LIFE` can do in one step, over all moves: it stays, or it follows one of
the three commands, or it returns to `Uninitialized` by reset and by nothing else. -/
def Obligations.LifecycleChangesOnlyAsDrawn : Prop :=
  ∀ s t : State, step s = .next t → t.life ≠ s.life →
    (∃ w, nextMove s = .command w ∧ decode w = .ok .init ∧ s.life = .uninitialized ∧ t.life = .disabled)
    ∨ (∃ w, nextMove s = .command w ∧ decode w = .ok .enable ∧ s.life = .disabled ∧ t.life = .enabled)
    ∨ (∃ w, nextMove s = .command w ∧ decode w = .ok .disable ∧ s.life = .enabled ∧ t.life = .disabled)
    ∨ (∃ lost lostTick, nextMove s = .rst lost lostTick ∧ t.life = .uninitialized)

/-! ### The colour commands -/

/-- `43_color.md` R150: `SETCOLOR` in `Disabled` or `Enabled`, for every operand: the cache and the three compare registers, each
from its own operand, and nothing else. `SAVED_IE` holds the value saved on entry (`41_primitives.md` R111). -/
def Obligations.SetcolorWritesCacheAndCompares : Prop :=
  ∀ (r g b : Intensity) (s : State), s.fault = none → (s.life = .disabled ∨ s.life = .enabled) →
    exec (.setcolor r g b) s = .next
      { s with
        color := packColor r g b
        red := { s.red with cmp := lookup r }
        green := { s.green with cmp := lookup g }
        blue := { s.blue with cmp := lookup b }
        savedIe := s.ie
        resp := none }
    ∧ colorField (packColor r g b) .red = r
    ∧ colorField (packColor r g b) .green = g
    ∧ colorField (packColor r g b) .blue = b

/-- `43_color.md` R151: `GETCOLOR` in `Disabled` or `Enabled` answers the cached colour and writes no register. That the host
agent keeps a record of the responses, to which the word is added, is the model's (DESIGN CHOICE, notes/assumptions/12.md). -/
def Obligations.GetcolorAnswersTheCache : Prop :=
  ∀ s : State, s.fault = none → (s.life = .disabled ∨ s.life = .enabled) →
    exec .getcolor s = .next
      { s with
        resp := some ((0 : BitVec 8) ++ colorField s.color .red ++ colorField s.color .green ++ colorField s.color .blue)
        host := { s.host with responses := s.host.responses ++
          [(0 : BitVec 8) ++ colorField s.color .red ++ colorField s.color .green ++ colorField s.color .blue] } }

/-- `30_encoding.md` R87: a response is driven by a `GETCOLOR` that runs and by nothing else; its bits 31:24 are zero and its
other bytes are the cached colour. A step that marks a fault drives none. The clause on `host.responses` is about the
model's own record of the responses (DESIGN CHOICE, notes/assumptions/12.md). -/
def Obligations.OnlyGetcolorDrivesAResponse : Prop :=
  ∀ s t : State, step s = .next t →
    (∀ x, t.resp = some x →
      (∃ w, nextMove s = .command w ∧ decode w = .ok .getcolor) ∧ t.fault = none
      ∧ x.extractLsb' 24 8 = 0 ∧ x.extractLsb' 16 8 = colorField s.color .red
      ∧ x.extractLsb' 8 8 = colorField s.color .green ∧ x.extractLsb' 0 8 = colorField s.color .blue)
    ∧ (t.resp = none → t.host.responses = s.host.responses)
    ∧ (∀ w, nextMove s = .command w → decode w = .ok .getcolor → t.fault = none → respValid t = true)

/-- `43_color.md` R152: from every unfaulted initialised state, `SETCOLOR r, g, b`, then any ticks, `ENABLE`, `DISABLE` and
`GETCOLOR` commands, then `GETCOLOR`, answers exactly `(r, g, b)`, and no step of the run is faulted. -/
def Obligations.SetThenGetAnswersTheColour : Prop :=
  ∀ (s : State) (r g b : Intensity) (between rest : List Move),
    s.fault = none → Initialised s →
    (∀ m ∈ between, m = .tick ∨ m = .command (encode .enable) ∨ m = .command (encode .disable)
      ∨ m = .command (encode .getcolor)) →
    s.host.script.drop s.host.index
      = .command (encode (.setcolor r g b)) :: (between ++ .command (encode .getcolor) :: rest) →
    ∃ t, FaultFreeRun (between.length + 2) s t ∧ t.fault = none
      ∧ t.resp = some ((0 : BitVec 8) ++ r ++ g ++ b)

/-- `20_memory.md` R68: of two `SETCOLOR` commands the later leaves its colour entire: the state is the one it alone leaves. -/
def Obligations.LaterSetcolorLeavesNoMixture : Prop :=
  ∀ (r g b r' g' b' : Intensity) (s : State), s.fault = none → Initialised s →
    ∃ t u, exec (.setcolor r g b) s = .next t ∧ exec (.setcolor r' g' b') t = .next u
      ∧ exec (.setcolor r' g' b') s = .next u

/-- `20_memory.md` R73: idempotence in an unfaulted initialised state. A repeated `ENABLE`, `DISABLE` or `SETCOLOR` with the same
operands leaves the same state as one; a `GETCOLOR` changes nothing but the response (and the model's record of responses,
DESIGN CHOICE, notes/assumptions/12.md); a second `INIT` is misuse. -/
def Obligations.RepeatedCommandLeavesTheSameState : Prop :=
  ∀ (s : State), s.fault = none → Initialised s →
    (∃ t, exec .enable s = .next t ∧ exec .enable t = .next t)
    ∧ (∃ t, exec .disable s = .next t ∧ exec .disable t = .next t)
    ∧ (∀ r g b, ∃ t, exec (.setcolor r g b) s = .next t ∧ exec (.setcolor r g b) t = .next t)
    ∧ (∃ t, exec .getcolor s = .next t ∧ { t with resp := s.resp, host := s.host } = s)
    ∧ (∃ t, exec .init s = .next t ∧ t.fault = some (.lifecycleMisuse .init s.life))

/-- `41_primitives.md` R116, `44_pwm_datapath.md` R181: the compare values a `SETCOLOR` writes are what the comparators use in the
state its step leaves, at the counters' present position. -/
def Obligations.NewCompareValueActsAtOnce : Prop :=
  ∀ (r g b : Intensity) (s : State), s.fault = none → Initialised s →
    ∃ t, exec (.setcolor r g b) s = .next t
      ∧ active t .red = activeAt s.unitA.cnt s.unitA.dir (lookup r)
      ∧ active t .green = activeAt s.unitA.cnt s.unitA.dir (lookup g)
      ∧ active t .blue = activeAt s.unitB.cnt s.unitB.dir (lookup b)

/-- `43_color.md` R153: after a `SETCOLOR` every compare register holds the table's value of the cached colour, and it stays so
through every unfaulted run without a reset; what the pins show then is a function of it only while `LIFE = Enabled`. -/
def Obligations.ComparesFollowTheCacheUntilReset : Prop :=
  ∀ (r g b : Intensity) (s t u : State) (n : Nat),
    s.fault = none → Initialised s → RegistersConsistent s → exec (.setcolor r g b) s = .next t →
    FaultFreeRun n t u → (∀ m ∈ upcoming n t, ∀ lost lostTick, m ≠ .rst lost lostTick) →
    (∀ c, (u.channel c).cmp = lookup (colorField u.color c))
    ∧ (u.life = .enabled → ∀ c, pinLevel u c =
        if activeAt (u.counter c.unit).cnt (u.counter c.unit).dir (lookup (colorField u.color c)) then .low else .high)
    ∧ (u.life ≠ .enabled → ∀ c, pinLevel u c = .high)

/-! ### Interrupt enable and the critical section -/

/-- `41_primitives.md` R111, R112: the two micro-operations, with the whole state. -/
def Obligations.MaskSavesAndRestorePutsBack : Prop :=
  ∀ s : State,
    maskInterrupts s = { s with savedIe := s.ie, ie := false }
    ∧ restoreInterrupts s = { s with ie := s.savedIe }
    ∧ ∀ body : State → State, ∃ inner, inner = { s with savedIe := s.ie, ie := false }
        ∧ criticalSection body s = { body inner with ie := (body inner).savedIe }

/-- `41_primitives.md` R113: a critical section whose body writes neither `IE` nor `SAVED_IE` ends with the `IE` it began with, and
every command does. -/
def Obligations.CriticalSectionRestoresInterruptEnable : Prop :=
  (∀ (body : State → State) (s : State),
      (∀ t, (body t).ie = t.ie) → (∀ t, (body t).savedIe = t.savedIe) → (criticalSection body s).ie = s.ie)
  ∧ (∀ (i : Instr) (s t : State), exec i s = .next t → t.ie = s.ie)

/-- `10_state.md` R31, `41_primitives.md` R121, `70_reset_and_hazards.md` R236: the host's own change of `IE` sets it to the value it
asks for and writes no other register, and over all moves nothing else changes `IE`. That reset leaves it is the model's
reading (notes/assumptions/4.md); that the index and the draw counter move on, and that this move presents no response, are
the model's (DESIGN CHOICE, notes/assumptions/1.md, 7.md, 12.md). -/
def Obligations.OnlyTheHostChangesInterruptEnable : Prop :=
  (∀ (s : State) (ie : Bool), nextMove s = .hostSetsIe ie → step s = .next { takeMove s with ie := ie, resp := none })
  ∧ ∀ s t : State, step s = .next t → t.ie ≠ s.ie → ∃ ie, nextMove s = .hostSetsIe ie ∧ t.ie = ie

/-! ### Faults -/

/-- `60_exceptions.md` R193: a step that records a mark writes no other register and drives no response: the state is the one
before the command, plus the mark. That the host's index and the draw counter move on with the step is the model's (DESIGN
CHOICE, notes/assumptions/1.md, 7.md). -/
def Obligations.RecordingAFaultWritesNothingElse : Prop :=
  ∀ (s t : State) (m : FaultMark), step s = .next t → s.fault = none → t.fault = some m →
    t = { takeMove s with fault := some m, resp := none } ∧ ∃ w, nextMove s = .command w

/-- `60_exceptions.md` R196: `IllegalCommand` before `LifecycleMisuse` before `InitPreemptible`, and one mark only. -/
def Obligations.FaultPriorityIsAsStated : Prop :=
  (∀ (w : Word) (s : State) (r : ReservedWord), s.fault = none → decode w = .error r →
      ∃ t, commandStep w s = .next t ∧ t.fault = some (.illegalCommand w))
  ∧ (∀ (w : Word) (i : Instr) (s : State), s.fault = none → decode w = .ok i →
      ((s.life = .uninitialized ∧ i.name ≠ .init) ∨ (s.life ≠ .uninitialized ∧ i.name = .init)) →
      ∃ t, commandStep w s = .next t ∧ t.fault = some (.lifecycleMisuse i.name s.life))
  ∧ (∀ (w : Word) (s : State), s.fault = none → decode w = .ok .init → s.life = .uninitialized → s.ie = true →
      ∃ t, commandStep w s = .next t ∧ t.fault = some .initPreemptible)
  ∧ (∀ s : State, s.fault = none → s.life = .enabled → s.ie = true →
      (∃ t, commandStep 0x01000001 s = .next t ∧ t.fault = some (.illegalCommand 0x01000001))
      ∧ (∃ t, commandStep 0x01000000 s = .next t ∧ t.fault = some (.lifecycleMisuse .init .enabled)))

/-- `42_lifecycle.md` R135 (1), `60_exceptions.md` R195: in a faulted state every command word, reserved or not, stops the machine,
which names the mark. That the model stops there is its choice among those R195 allows (notes/assumptions/8.md). -/
def Obligations.FaultedStateStopsEveryCommand : Prop :=
  ∀ (s : State) (m : FaultMark), s.fault = some m →
    (∀ i : Instr, exec i s = .fault (.commandInFaultedState m))
    ∧ (∀ w : Word, nextMove s = .command w → step s = .fault (.commandInFaultedState m))

/-- `10_state.md` R33, `60_exceptions.md` R195: `FAULT` is `none` at reset, a mark once recorded stays through every move but reset, and
reset clears it. -/
def Obligations.OnlyResetClearsTheFaultMark : Prop :=
  State.reset.fault = none
  ∧ ∀ (s t : State) (m : FaultMark), step s = .next t → s.fault = some m →
      (t.fault = some m ∧ ∀ lost lostTick, nextMove s ≠ .rst lost lostTick)
      ∨ (t.fault = none ∧ ∃ lost lostTick, nextMove s = .rst lost lostTick)

/-- The machine stops for one reason only: a command in a faulted state (notes/assumptions/8.md; `42_lifecycle.md` R136: no command
fails other than by misuse). -/
def Obligations.UnfaultedStateNeverStops : Prop :=
  ∀ s : State, s.fault = none → ∃ t, step s = .next t

/-! ### Counters -/

/-- `44_pwm_datapath.md` R171: the triangle function, its example values, and that it is a bijection between the positions
`0 .. 131069` and all pairs but `(0, down)` and `(65535, up)`. -/
def Obligations.TriangleIsABijection : Prop :=
  (∀ n, tri n = if n % 131070 < 65535 then (BitVec.ofNat 16 (n % 131070), .up)
      else (BitVec.ofNat 16 (131070 - n % 131070), .down))
  ∧ (tri 0 = (0, .up) ∧ tri 1 = (1, .up) ∧ tri 65534 = (65534, .up) ∧ tri 65535 = (65535, .down)
      ∧ tri 65536 = (65534, .down) ∧ tri 131069 = (1, .down) ∧ tri 131070 = tri 0)
  ∧ (∀ m n, m < 131070 → n < 131070 → tri m = tri n → m = n)
  ∧ (∀ (cnt : Count) (dir : Dir),
      (∃ n, n < 131070 ∧ tri n = (cnt, dir)) ↔ ¬((cnt = 0 ∧ dir = .down) ∨ (cnt = 65535 ∧ dir = .up)))

/-- `44_pwm_datapath.md` R172: a tick moves every running, configured counter on by one position, leaves any other counter, moves
both in one step, and writes no other register. That the host's index and the draw counter move on with the step is the
model's (DESIGN CHOICE, notes/assumptions/1.md, 7.md). -/
def Obligations.TickMovesRunningCountersOnePosition : Prop :=
  (∀ s : State, nextMove s = .tick →
      step s = .next { takeMove s with unitA := s.unitA.tick, unitB := s.unitB.tick, resp := none })
  ∧ (∀ u : CounterUnit, ¬(u.run = true ∧ u.mode = .phaseCorrect) → u.tick = u)
  ∧ (∀ u : CounterUnit, u.run = true → u.mode = .phaseCorrect → u.dir = .up →
      u.tick = { u with cnt := u.cnt + 1, dir := if u.cnt + 1 = 65535 then .down else .up })
  ∧ (∀ u : CounterUnit, u.run = true → u.mode = .phaseCorrect → u.dir = .down →
      u.tick = { u with cnt := u.cnt - 1, dir := if u.cnt - 1 = 0 then .up else .down })
  ∧ (∀ (u : CounterUnit) (p : Nat), u.run = true → u.mode = .phaseCorrect → (u.cnt, u.dir) = tri p →
      (u.tick.cnt, u.tick.dir) = tri (p + 1) ∧ u.tick.position = (u.position + 1) % 131070)

/-- `44_pwm_datapath.md` R171, R172: `n` ticks move a configured counter by `n` positions, and a period of 131070 ticks brings it
back. -/
def Obligations.PeriodOfTicksReturnsTheCounter : Prop :=
  ∀ p n : Nat,
    CounterUnit.tick^[n] (.configured p) = .configured (p + n)
    ∧ CounterUnit.tick^[131070] (.configured p) = .configured p

/-- `44_pwm_datapath.md` R174: in a state that meets `10_state.md` R36 the increment is applied only to counts up to 65534 and the
decrement only to counts from 1, so neither wraps. -/
def Obligations.CountersNeverWrap : Prop :=
  ∀ (s : State) (u : UnitId), RegistersConsistent s → Initialised s →
    ((s.counter u).dir = .up → (s.counter u).cnt.toNat ≤ 65534 ∧ (s.counter u).tick.cnt.toNat = (s.counter u).cnt.toNat + 1)
    ∧ ((s.counter u).dir = .down → 1 ≤ (s.counter u).cnt.toNat
        ∧ (s.counter u).tick.cnt.toNat + 1 = (s.counter u).cnt.toNat)

/-- `10_state.md` R29, R30, `44_pwm_datapath.md` R173: over all moves, a counter changes by a tick, by an `INIT` that runs or by reset,
and by nothing else; and a running counter is stopped by nothing but reset. -/
def Obligations.OnlyTickInitAndResetTouchCounters : Prop :=
  ∀ s t : State, step s = .next t →
    ((t.unitA ≠ s.unitA ∨ t.unitB ≠ s.unitB) →
      nextMove s = .tick
      ∨ (∃ w, nextMove s = .command w ∧ decode w = .ok .init ∧ s.life = .uninitialized)
      ∨ ∃ lost lostTick, nextMove s = .rst lost lostTick)
    ∧ (∀ u, (s.counter u).run = true → (t.counter u).run = false → ∃ lost lostTick, nextMove s = .rst lost lostTick)

/-- `10_state.md` R37: over all moves but reset, which registers a step that answers a next state may change: the colour and the
compare registers only by `SETCOLOR` (the compare registers by `INIT` too), the latches by `INIT` and `DISABLE`, the output
enables by `INIT`, the connect bits by `INIT`, `ENABLE` and `DISABLE`, and `SAVED_IE` by `ENABLE`, `DISABLE` and `SETCOLOR`, to
the `IE` they found. (`LIFE`, the counters, `IE` and `FAULT` have statements of their own.) -/
def Obligations.RegistersHaveTheStatedWriters : Prop :=
  ∀ (s t : State) (c : Channel), step s = .next t → (∀ lost lostTick, nextMove s ≠ .rst lost lostTick) →
    (t.color ≠ s.color → ∃ w r g b, nextMove s = .command w ∧ decode w = .ok (.setcolor r g b))
    ∧ ((t.channel c).cmp ≠ (s.channel c).cmp → ∃ w i, nextMove s = .command w ∧ decode w = .ok i
        ∧ (i.name = .setcolor ∨ i.name = .init))
    ∧ ((t.channel c).com ≠ (s.channel c).com → ∃ w i, nextMove s = .command w ∧ decode w = .ok i
        ∧ (i.name = .init ∨ i.name = .enable ∨ i.name = .disable))
    ∧ ((t.channel c).latch ≠ (s.channel c).latch → ∃ w i, nextMove s = .command w ∧ decode w = .ok i
        ∧ (i.name = .init ∨ i.name = .disable) ∧ (t.channel c).latch = true)
    ∧ ((t.channel c).oe ≠ (s.channel c).oe → ∃ w, nextMove s = .command w ∧ decode w = .ok .init
        ∧ (t.channel c).oe = true)
    ∧ (t.savedIe ≠ s.savedIe → ∃ w i, nextMove s = .command w ∧ decode w = .ok i
        ∧ (i.name = .enable ∨ i.name = .disable ∨ i.name = .setcolor) ∧ t.savedIe = s.ie)

/-! ### Comparators and pins -/

/-- `44_pwm_datapath.md` R175: the comparator in count form and in position form. -/
def Obligations.ComparatorPositionForm : Prop :=
  (∀ (s : State) (c : Channel), active s c = true ↔
      ((s.counter c.unit).cnt < (s.channel c).cmp
        ∨ ((s.counter c.unit).cnt = (s.channel c).cmp ∧ (s.counter c.unit).dir = .down)))
  ∧ (∀ (k : Count) (p : Nat), p < 131070 →
      (activeAt (tri p).1 (tri p).2 k = true ↔ (p < k.toNat ∨ 131070 - k.toNat ≤ p)))

/-- `44_pwm_datapath.md` R176: over a whole period with compare value `k`: (a) never active for 0, (b) always for 65535, (c) active
for exactly `2k` of the 131070 ticks, so that the duty is `k / 65535`, and for `1 <= k <= 65534` at the positions
`131070 - k .. 131069` and `0 .. k - 1`, with one rising and one falling edge; and every window is centred on the same tick, the bottom of the triangle. -/
def Obligations.DutyIsExactlyTheCompareValue : Prop :=
  ∀ k : Count,
    (k = 0 → ∀ p, activeAt (tri p).1 (tri p).2 k = false)
    ∧ (k = 65535 → ∀ p, activeAt (tri p).1 (tri p).2 k = true)
    ∧ (List.range 131070).countP (fun p => activeAt (tri p).1 (tri p).2 k) = 2 * k.toNat
    ∧ 65535 * (List.range 131070).countP (fun p => activeAt (tri p).1 (tri p).2 k) = k.toNat * 131070
    ∧ (1 ≤ k.toNat → k.toNat ≤ 65534 →
        (∀ p, p < 131070 → (activeAt (tri p).1 (tri p).2 k = true ↔ (p ≤ k.toNat - 1 ∨ 131070 - k.toNat ≤ p)))
        ∧ (∃! p, p < 131070 ∧ activeAt (tri p).1 (tri p).2 k = false ∧ activeAt (tri (p + 1)).1 (tri (p + 1)).2 k = true)
        ∧ (∃! p, p < 131070 ∧ activeAt (tri p).1 (tri p).2 k = true ∧ activeAt (tri (p + 1)).1 (tri (p + 1)).2 k = false))
    ∧ (∀ p, p < 131070 → activeAt (tri p).1 (tri p).2 k = activeAt (tri (131069 - p)).1 (tri (131069 - p)).2 k)

/-- `44_pwm_datapath.md` R177: the pin driver, active-low, once the unit has left `Uninitialized`; and the LED is lit exactly when a
driven pin is low. -/
def Obligations.PinDriverFollowsEnableConnectLatch : Prop :=
  ∀ (s : State) (c : Channel), Initialised s →
    ((s.channel c).oe = false → pinLevel s c = .z)
    ∧ ((s.channel c).oe = true → (s.channel c).com = true → pinLevel s c = if active s c then .low else .high)
    ∧ ((s.channel c).oe = true → (s.channel c).com = false → pinLevel s c = if (s.channel c).latch then .high else .low)
    ∧ ((s.channel c).oe = true → (ledLit s c = true ↔ pinLevel s c = .low))

/-- `44_pwm_datapath.md` R178: before `INIT` the pin is a free draw; in a state that meets `10_state.md` R36, all pins are 1 in
`Disabled`, and a pin is 1 minus `ACTIVE` in `Enabled`. The first clause names the model's free value (DESIGN CHOICE,
notes/assumptions/7.md) and says nothing of the level; the statement holds for every value of it. -/
def Obligations.PinsByLifecycleState : Prop :=
  ∀ (s : State) (c : Channel), RegistersConsistent s →
    (s.life = .uninitialized → pinLevel s c = Config.freePin s.draw c)
    ∧ (s.life = .disabled → pinLevel s c = .high)
    ∧ (s.life = .enabled → (pinLevel s c = .low ↔ active s c = true) ∧ (pinLevel s c = .high ↔ active s c = false))

/-- `44_pwm_datapath.md` R179: red and green compare against counter A, so if `CMP_R <= CMP_G` the red window lies inside the green
one. -/
def Obligations.RedWindowLiesInsideGreen : Prop :=
  ∀ s : State, RegistersConsistent s → s.life = .enabled → s.red.cmp ≤ s.green.cmp →
    pinLevel s .red = .low → pinLevel s .green = .low

/-- `44_pwm_datapath.md` R182: the worked waveform, compare values `(2048, 0, 65535)`, both counters at the position `p`. -/
def Obligations.WorkedWaveformHolds : Prop :=
  ∀ (s : State) (p : Nat),
    s.life = .enabled → (∀ c, (s.channel c).oe = true ∧ (s.channel c).com = true) →
    s.red.cmp = 2048 → s.green.cmp = 0 → s.blue.cmp = 65535 →
    (s.unitA.cnt, s.unitA.dir) = tri p → (s.unitB.cnt, s.unitB.dir) = tri p →
      ((p = 0 ∨ p = 2047 ∨ p = 129022 ∨ p = 131069) →
        pinLevel s .red = .low ∧ pinLevel s .green = .high ∧ pinLevel s .blue = .low)
      ∧ ((p = 2048 ∨ p = 65535 ∨ p = 129021) →
        pinLevel s .red = .high ∧ pinLevel s .green = .high ∧ pinLevel s .blue = .low)

/-! ### The gamma table -/

/-- `40_gamma_lut.md` R101, R102, R103, R104: the four properties of the table. -/
def Obligations.GammaTableHasTheStatedProperties : Prop :=
  lookup 0 = 0
  ∧ lookup 255 = 65535
  ∧ (∀ i : Intensity, i ≠ 255 → lookup i ≤ lookup (i + 1))
  ∧ lookup 128 = 2048

/-- `40_gamma_lut.md` R106: what follows from them. -/
def Obligations.GammaTableIsMonotoneAndBounded : Prop :=
  (∀ i j : Intensity, i ≤ j → lookup i ≤ lookup j)
  ∧ (∀ i : Intensity, (lookup i).toNat ≤ 65535)
  ∧ (∀ i : Intensity, i ≤ 128 → lookup i ≤ 2048)
  ∧ (∀ i : Intensity, 128 ≤ i → 2048 ≤ lookup i)

/-! ### The register invariant -/

/-- `10_state.md` R36 holds at reset. -/
def Obligations.ResetStateIsConsistent : Prop :=
  State.reset.fault = none ∧ RegistersConsistent State.reset

/-- `10_state.md` R36, parts (a) to (e): from every state that meets it, every step, whatever agent moves, gives a state that meets
it, unless that state is faulted. -/
def Obligations.EveryStepKeepsConsistency : Prop :=
  ∀ s t : State, Consistent s → step s = .next t → Consistent t

/-! ### The channel assignment -/

/-- `10_state.md` R22: red on A.0, green on A.1, blue on B.0, so that `unit(R) = A`, `unit(G) = A`, `unit(B) = B`; and R35: no channel
is on B.1, and no two on one port. -/
def Obligations.ChannelsHaveTheStatedComparePorts : Prop :=
  Channel.red.comparePort = ⟨.a, 0⟩ ∧ Channel.green.comparePort = ⟨.a, 1⟩ ∧ Channel.blue.comparePort = ⟨.b, 0⟩
  ∧ Channel.red.unit = .a ∧ Channel.green.unit = .a ∧ Channel.blue.unit = .b
  ∧ (∀ c : Channel, c.comparePort ≠ ⟨.b, 1⟩)
  ∧ (∀ c d : Channel, c.comparePort = d.comparePort → c = d)
end

