-- ==== Sys2Proof/Laws/Counters.lean ====
section
/-! SUPPORT. The unit of each channel, and what the triangle function and the positions do (`44_pwm_datapath.md` R171). -/

namespace Sys2Proof.Machine

/-! `Channel.unit`, the unit of each channel's compare port (`10_state.md` R22). -/

@[simp] theorem unit_red : Channel.red.unit = .a := rfl
@[simp] theorem unit_green : Channel.green.unit = .a := rfl
@[simp] theorem unit_blue : Channel.blue.unit = .b := rfl

theorem topCount_eq : topCount = 65535 := rfl

/-- On the rising half the count is the position. -/
theorem tri_of_lt_top {p : Nat} (h : p < 65535) : tri p = (BitVec.ofNat 16 p, .up) := by
  have hp : p % 131070 = p := Nat.mod_eq_of_lt (by omega)
  simp only [tri, Config.period, Config.top, hp, h, if_true]

/-- On the falling half the count is the distance to the end of the period. -/
theorem tri_of_ge_top {p : Nat} (h : 65535 ≤ p) (h' : p < 131070) : tri p = (BitVec.ofNat 16 (131070 - p), .down) := by
  have hp : p % 131070 = p := Nat.mod_eq_of_lt h'
  have ht : ¬ p < 65535 := by omega
  simp only [tri, Config.period, Config.top, hp, ht, if_false]

/-- `tri` depends on the position within the period only. -/
theorem tri_mod (n : Nat) : tri (n % 131070) = tri n := by
  unfold tri Config.period
  rw [Nat.mod_mod]

/-- `positionOf` is the left inverse of `tri` on the positions of a period. -/
theorem positionOf_tri (n : Nat) : positionOf (tri n).1 (tri n).2 = n % 131070 := by
  rw [← tri_mod]
  have hn : n % 131070 < 131070 := Nat.mod_lt _ (by omega)
  generalize n % 131070 = p at hn
  by_cases h : p < 65535
  · rw [tri_of_lt_top h]; simp only [positionOf, BitVec.toNat_ofNat]; omega
  · rw [tri_of_ge_top (by omega) hn]; simp only [positionOf, Config.period, BitVec.toNat_ofNat]; omega

/-- A configured counter stands at its position. -/
@[simp] theorem configured_position (p : Nat) : (CounterUnit.configured p).position = p % 131070 := positionOf_tri p

@[simp] theorem configured_run (p : Nat) : (CounterUnit.configured p).run = true := rfl
@[simp] theorem configured_mode (p : Nat) : (CounterUnit.configured p).mode = .phaseCorrect := rfl
@[simp] theorem configured_cnt (p : Nat) : (CounterUnit.configured p).cnt = (tri p).1 := rfl
@[simp] theorem configured_dir (p : Nat) : (CounterUnit.configured p).dir = (tri p).2 := rfl

/-- A counter whose direction at the top is down and at the bottom is up stands on the triangle, at its position. -/
theorem tri_position {u : CounterUnit} (ht : u.cnt = topCount → u.dir = .down) (hb : u.cnt = 0 → u.dir = .up) :
    (u.cnt, u.dir) = tri u.position ∧ u.position < 131070 := by
  obtain ⟨mode, run, cnt, dir⟩ := u
  have hlt := cnt.isLt
  cases dir with
  | up =>
    have h1 : cnt.toNat ≠ 65535 := fun h => by
      have := ht (BitVec.eq_of_toNat_eq (by rw [topCount_eq]; exact h)); cases this
    simp only [CounterUnit.position, positionOf]
    refine ⟨?_, by omega⟩
    rw [tri_of_lt_top (by omega), BitVec.ofNat_toNat, BitVec.setWidth_eq]
  | down =>
    have h1 : cnt.toNat ≠ 0 := fun h => by
      have := hb (BitVec.eq_of_toNat_eq h); cases this
    simp only [CounterUnit.position, positionOf, Config.period]
    refine ⟨?_, by omega⟩
    rw [tri_of_ge_top (by omega) (by omega)]
    have : 131070 - (131070 - cnt.toNat) = cnt.toNat := by omega
    rw [this, BitVec.ofNat_toNat, BitVec.setWidth_eq]

/-- The direction at the top is down and at the bottom is up, at every position of the triangle. -/
theorem tri_turns (p : Nat) : ((tri p).1 = topCount → (tri p).2 = .down) ∧ ((tri p).1 = 0 → (tri p).2 = .up) := by
  rw [← tri_mod]
  have hn : p % 131070 < 131070 := Nat.mod_lt _ (by omega)
  generalize p % 131070 = p at hn
  by_cases h : p < 65535
  · rw [tri_of_lt_top h, topCount_eq]
    refine ⟨fun hc => ?_, fun _ => rfl⟩
    have : p % 65536 = 65535 := congrArg BitVec.toNat hc
    omega
  · rw [tri_of_ge_top (by omega) hn]
    refine ⟨fun _ => rfl, fun hc => ?_⟩
    have : (131070 - p) % 65536 = 0 := congrArg BitVec.toNat hc
    omega

/-- A counter that does not run, or is not configured, does not move. -/
theorem tick_of_not_running {u : CounterUnit} (h : ¬(u.run = true ∧ u.mode = .phaseCorrect)) : u.tick = u := by
  unfold CounterUnit.tick; rw [if_neg h]

/-- A tick writes neither the mode nor the run bit. -/
@[simp] theorem tick_run (u : CounterUnit) : u.tick.run = u.run := by
  unfold CounterUnit.tick; split <;> (try split) <;> rfl

@[simp] theorem tick_mode (u : CounterUnit) : u.tick.mode = u.mode := by
  unfold CounterUnit.tick; split <;> (try split) <;> rfl

/-- The comparator's two unsigned comparisons, on numbers. -/
theorem activeAt_iff (cnt : Count) (dir : Dir) (k : Count) :
    activeAt cnt dir k = true ↔ cnt.toNat < k.toNat ∨ (cnt.toNat = k.toNat ∧ dir = .down) := by
  simp only [activeAt, Bool.or_eq_true, Bool.and_eq_true, decide_eq_true_eq, beq_iff_eq, BitVec.lt_def]
  rw [BitVec.toNat_inj]

end Sys2Proof.Machine
end

