-- ==== Sys2Proof/Laws/Encoding.lean ====
section
/-! SUPPORT. The fields of a word of format `C` and of a packed colour (`30_encoding.md` R81, `10_state.md` R23). -/

namespace Sys2Proof

variable (op : BitVec 8) (r g b : Intensity)

@[simp] theorem opField_formatC : opField (formatC op r g b) = op := by
  apply BitVec.eq_of_getLsbD_eq; intro i hi
  simp only [opField, formatC, BitVec.getLsbD_extractLsb', BitVec.getLsbD_append, hi, decide_true, Bool.true_and]
  rw [if_neg (by omega), if_neg (by omega), if_neg (by omega)]
  congr 1; omega

@[simp] theorem redField_formatC : redField (formatC op r g b) = r := by
  apply BitVec.eq_of_getLsbD_eq; intro i hi
  simp only [redField, formatC, BitVec.getLsbD_extractLsb', BitVec.getLsbD_append, hi, decide_true, Bool.true_and]
  rw [if_neg (by omega), if_neg (by omega), if_pos (by omega)]
  congr 1; omega

@[simp] theorem greenField_formatC : greenField (formatC op r g b) = g := by
  apply BitVec.eq_of_getLsbD_eq; intro i hi
  simp only [greenField, formatC, BitVec.getLsbD_extractLsb', BitVec.getLsbD_append, hi, decide_true, Bool.true_and]
  rw [if_neg (by omega), if_pos (by omega)]
  congr 1; omega

@[simp] theorem blueField_formatC : blueField (formatC op r g b) = b := by
  apply BitVec.eq_of_getLsbD_eq; intro i hi
  simp only [blueField, formatC, BitVec.getLsbD_extractLsb', BitVec.getLsbD_append, hi, decide_true, Bool.true_and]
  rw [if_pos (by omega)]
  congr 1; omega

/-- A word is its four fields. -/
theorem formatC_fields (w : Word) : formatC (opField w) (redField w) (greenField w) (blueField w) = w := by
  apply BitVec.eq_of_getLsbD_eq; intro i hi
  simp only [formatC, opField, redField, greenField, blueField, BitVec.getLsbD_append, BitVec.getLsbD_extractLsb']
  split
  · rename_i h; simp [h]
  · split
    · rename_i h1 h2; simp only [h2, decide_true, Bool.true_and]; congr 1; omega
    · split
      · rename_i h1 h2 h3; simp only [h3, decide_true, Bool.true_and]; congr 1; omega
      · rename_i h1 h2 h3
        have h4 : i - 8 - 8 - 8 < 8 := by omega
        simp only [h4, decide_true, Bool.true_and]; congr 1; omega

/-- The operand bits are zero exactly when the three operand bytes are. -/
theorem operandBits_eq_zero (w : Word) :
    operandBits w = 0 ↔ redField w = 0 ∧ greenField w = 0 ∧ blueField w = 0 := by
  constructor
  · intro h
    have key : ∀ i, i < 24 → w.getLsbD i = false := fun i hi => by
      have := congrArg (fun v => v.getLsbD i) h
      simpa [operandBits, BitVec.getLsbD_extractLsb', hi] using this
    refine ⟨?_, ?_, ?_⟩ <;> apply BitVec.eq_of_getLsbD_eq <;> intro i hi <;>
      simp [redField, greenField, blueField, BitVec.getLsbD_extractLsb', key _ (show 16 + i < 24 by omega),
        key _ (show 8 + i < 24 by omega), key i (by omega)]
  · rintro ⟨hr, hg, hb⟩
    apply BitVec.eq_of_getLsbD_eq; intro i hi
    simp only [operandBits, BitVec.getLsbD_extractLsb', hi, decide_true, Bool.true_and, Nat.zero_add, BitVec.ofNat_eq_ofNat,
      BitVec.getLsbD_zero]
    by_cases h1 : i < 8
    · simpa [blueField, BitVec.getLsbD_extractLsb', h1] using congrArg (fun v => v.getLsbD i) hb
    · by_cases h2 : i < 16
      · have h3 : 8 + (i - 8) = i := by omega
        simpa [greenField, BitVec.getLsbD_extractLsb', h3, show i - 8 < 8 by omega] using
          congrArg (fun v => v.getLsbD (i - 8)) hg
      · have h3 : 16 + (i - 16) = i := by omega
        simpa [redField, BitVec.getLsbD_extractLsb', h3, show i - 16 < 8 by omega] using
          congrArg (fun v => v.getLsbD (i - 16)) hr

namespace Machine

@[simp] theorem colorField_red_packColor : colorField (packColor r g b) .red = r := by
  apply BitVec.eq_of_getLsbD_eq; intro i hi
  simp only [colorField, packColor, BitVec.getLsbD_extractLsb', BitVec.getLsbD_append, hi, decide_true, Bool.true_and]
  rw [if_neg (by omega), if_neg (by omega)]
  congr 1; omega

@[simp] theorem colorField_green_packColor : colorField (packColor r g b) .green = g := by
  apply BitVec.eq_of_getLsbD_eq; intro i hi
  simp only [colorField, packColor, BitVec.getLsbD_extractLsb', BitVec.getLsbD_append, hi, decide_true, Bool.true_and]
  rw [if_neg (by omega), if_pos (by omega)]
  congr 1; omega

@[simp] theorem colorField_blue_packColor : colorField (packColor r g b) .blue = b := by
  apply BitVec.eq_of_getLsbD_eq; intro i hi
  simp only [colorField, packColor, BitVec.getLsbD_extractLsb', BitVec.getLsbD_append, hi, decide_true, Bool.true_and]
  rw [if_pos (by omega)]
  congr 1; omega

@[simp] theorem colorField_zero (c : Channel) : colorField 0#24 c = 0#8 := by cases c <;> decide

/-- A colour is its three fields. -/
theorem packColor_fields (x : Rgb) : packColor (colorField x .red) (colorField x .green) (colorField x .blue) = x := by
  apply BitVec.eq_of_getLsbD_eq; intro i hi
  simp only [packColor, colorField, BitVec.getLsbD_append, BitVec.getLsbD_extractLsb']
  split
  · rename_i h; simp [h]
  · split
    · rename_i h1 h2; simp only [h2, decide_true, Bool.true_and]; congr 1; omega
    · rename_i h1 h2
      have h3 : i - 8 - 8 < 8 := by omega
      simp only [h3, decide_true, Bool.true_and]; congr 1; omega

end Machine

end Sys2Proof
end

