-- ==== Sys2Proof/Laws/Gamma.lean ====
section
/-! SUPPORT. The look-up at the indices whose entry the spec gives, and between neighbours (`40_gamma_lut.md` R101 to R104). -/

namespace Sys2Proof.Machine

@[simp] theorem lookup_zero : lookup 0#8 = 0#16 := Config.gamma.first
@[simp] theorem lookup_last : lookup 255#8 = 65535#16 := Config.gamma.last
@[simp] theorem lookup_middle : lookup 128#8 = 2048#16 := Config.gamma.middle

/-- The table does not fall from one index to the next. -/
theorem lookup_rising {i : Nat} (h : i < 255) : lookup (BitVec.ofNat 8 i) ≤ lookup (BitVec.ofNat 8 (i + 1)) :=
  Config.gamma.rising i h

end Sys2Proof.Machine
end

