-- ==== Sys2Proof/Laws/State.lean ====
section
/-! SUPPORT. One lemma per field of the state per update of it, so that no proof unfolds a record update. -/

namespace Sys2Proof.Machine

variable (s : State)

/-! `noResponse` -/

@[simp] theorem noResponse_red : (noResponse s).red = s.red := rfl
@[simp] theorem noResponse_green : (noResponse s).green = s.green := rfl
@[simp] theorem noResponse_blue : (noResponse s).blue = s.blue := rfl
@[simp] theorem noResponse_unitA : (noResponse s).unitA = s.unitA := rfl
@[simp] theorem noResponse_unitB : (noResponse s).unitB = s.unitB := rfl
@[simp] theorem noResponse_color : (noResponse s).color = s.color := rfl
@[simp] theorem noResponse_life : (noResponse s).life = s.life := rfl
@[simp] theorem noResponse_ie : (noResponse s).ie = s.ie := rfl
@[simp] theorem noResponse_savedIe : (noResponse s).savedIe = s.savedIe := rfl
@[simp] theorem noResponse_fault : (noResponse s).fault = s.fault := rfl
@[simp] theorem noResponse_resp : (noResponse s).resp = none := rfl
@[simp] theorem noResponse_host : (noResponse s).host = s.host := rfl
@[simp] theorem noResponse_draw : (noResponse s).draw = s.draw := rfl

/-! `respond` -/

@[simp] theorem respond_red (w : Word) : (respond w s).red = s.red := rfl
@[simp] theorem respond_green (w : Word) : (respond w s).green = s.green := rfl
@[simp] theorem respond_blue (w : Word) : (respond w s).blue = s.blue := rfl
@[simp] theorem respond_unitA (w : Word) : (respond w s).unitA = s.unitA := rfl
@[simp] theorem respond_unitB (w : Word) : (respond w s).unitB = s.unitB := rfl
@[simp] theorem respond_color (w : Word) : (respond w s).color = s.color := rfl
@[simp] theorem respond_life (w : Word) : (respond w s).life = s.life := rfl
@[simp] theorem respond_ie (w : Word) : (respond w s).ie = s.ie := rfl
@[simp] theorem respond_savedIe (w : Word) : (respond w s).savedIe = s.savedIe := rfl
@[simp] theorem respond_fault (w : Word) : (respond w s).fault = s.fault := rfl
@[simp] theorem respond_resp (w : Word) : (respond w s).resp = some w := rfl
@[simp] theorem respond_host (w : Word) : (respond w s).host = { s.host with responses := s.host.responses ++ [w] } := rfl
@[simp] theorem respond_draw (w : Word) : (respond w s).draw = s.draw := rfl

/-! `maskInterrupts` -/

@[simp] theorem maskInterrupts_red : (maskInterrupts s).red = s.red := rfl
@[simp] theorem maskInterrupts_green : (maskInterrupts s).green = s.green := rfl
@[simp] theorem maskInterrupts_blue : (maskInterrupts s).blue = s.blue := rfl
@[simp] theorem maskInterrupts_unitA : (maskInterrupts s).unitA = s.unitA := rfl
@[simp] theorem maskInterrupts_unitB : (maskInterrupts s).unitB = s.unitB := rfl
@[simp] theorem maskInterrupts_color : (maskInterrupts s).color = s.color := rfl
@[simp] theorem maskInterrupts_life : (maskInterrupts s).life = s.life := rfl
@[simp] theorem maskInterrupts_ie : (maskInterrupts s).ie = false := rfl
@[simp] theorem maskInterrupts_savedIe : (maskInterrupts s).savedIe = s.ie := rfl
@[simp] theorem maskInterrupts_fault : (maskInterrupts s).fault = s.fault := rfl
@[simp] theorem maskInterrupts_resp : (maskInterrupts s).resp = s.resp := rfl
@[simp] theorem maskInterrupts_host : (maskInterrupts s).host = s.host := rfl
@[simp] theorem maskInterrupts_draw : (maskInterrupts s).draw = s.draw := rfl

/-! `restoreInterrupts` -/

@[simp] theorem restoreInterrupts_red : (restoreInterrupts s).red = s.red := rfl
@[simp] theorem restoreInterrupts_green : (restoreInterrupts s).green = s.green := rfl
@[simp] theorem restoreInterrupts_blue : (restoreInterrupts s).blue = s.blue := rfl
@[simp] theorem restoreInterrupts_unitA : (restoreInterrupts s).unitA = s.unitA := rfl
@[simp] theorem restoreInterrupts_unitB : (restoreInterrupts s).unitB = s.unitB := rfl
@[simp] theorem restoreInterrupts_color : (restoreInterrupts s).color = s.color := rfl
@[simp] theorem restoreInterrupts_life : (restoreInterrupts s).life = s.life := rfl
@[simp] theorem restoreInterrupts_ie : (restoreInterrupts s).ie = s.savedIe := rfl
@[simp] theorem restoreInterrupts_savedIe : (restoreInterrupts s).savedIe = s.savedIe := rfl
@[simp] theorem restoreInterrupts_fault : (restoreInterrupts s).fault = s.fault := rfl
@[simp] theorem restoreInterrupts_resp : (restoreInterrupts s).resp = s.resp := rfl
@[simp] theorem restoreInterrupts_host : (restoreInterrupts s).host = s.host := rfl
@[simp] theorem restoreInterrupts_draw : (restoreInterrupts s).draw = s.draw := rfl

/-! `writeColor` -/

@[simp] theorem writeColor_red (r g b : Intensity) : (writeColor r g b s).red = s.red := rfl
@[simp] theorem writeColor_green (r g b : Intensity) : (writeColor r g b s).green = s.green := rfl
@[simp] theorem writeColor_blue (r g b : Intensity) : (writeColor r g b s).blue = s.blue := rfl
@[simp] theorem writeColor_unitA (r g b : Intensity) : (writeColor r g b s).unitA = s.unitA := rfl
@[simp] theorem writeColor_unitB (r g b : Intensity) : (writeColor r g b s).unitB = s.unitB := rfl
@[simp] theorem writeColor_color (r g b : Intensity) : (writeColor r g b s).color = packColor r g b := rfl
@[simp] theorem writeColor_life (r g b : Intensity) : (writeColor r g b s).life = s.life := rfl
@[simp] theorem writeColor_ie (r g b : Intensity) : (writeColor r g b s).ie = s.ie := rfl
@[simp] theorem writeColor_savedIe (r g b : Intensity) : (writeColor r g b s).savedIe = s.savedIe := rfl
@[simp] theorem writeColor_fault (r g b : Intensity) : (writeColor r g b s).fault = s.fault := rfl
@[simp] theorem writeColor_resp (r g b : Intensity) : (writeColor r g b s).resp = s.resp := rfl
@[simp] theorem writeColor_host (r g b : Intensity) : (writeColor r g b s).host = s.host := rfl
@[simp] theorem writeColor_draw (r g b : Intensity) : (writeColor r g b s).draw = s.draw := rfl

/-! `tickStep` -/

@[simp] theorem tickStep_red : (tickStep s).red = s.red := rfl
@[simp] theorem tickStep_green : (tickStep s).green = s.green := rfl
@[simp] theorem tickStep_blue : (tickStep s).blue = s.blue := rfl
@[simp] theorem tickStep_unitA : (tickStep s).unitA = s.unitA.tick := rfl
@[simp] theorem tickStep_unitB : (tickStep s).unitB = s.unitB.tick := rfl
@[simp] theorem tickStep_color : (tickStep s).color = s.color := rfl
@[simp] theorem tickStep_life : (tickStep s).life = s.life := rfl
@[simp] theorem tickStep_ie : (tickStep s).ie = s.ie := rfl
@[simp] theorem tickStep_savedIe : (tickStep s).savedIe = s.savedIe := rfl
@[simp] theorem tickStep_fault : (tickStep s).fault = s.fault := rfl
@[simp] theorem tickStep_resp : (tickStep s).resp = none := rfl
@[simp] theorem tickStep_host : (tickStep s).host = s.host := rfl
@[simp] theorem tickStep_draw : (tickStep s).draw = s.draw := rfl

/-! `hostSetsIeStep` -/

@[simp] theorem hostSetsIeStep_red (ie : Bool) : (hostSetsIeStep ie s).red = s.red := rfl
@[simp] theorem hostSetsIeStep_green (ie : Bool) : (hostSetsIeStep ie s).green = s.green := rfl
@[simp] theorem hostSetsIeStep_blue (ie : Bool) : (hostSetsIeStep ie s).blue = s.blue := rfl
@[simp] theorem hostSetsIeStep_unitA (ie : Bool) : (hostSetsIeStep ie s).unitA = s.unitA := rfl
@[simp] theorem hostSetsIeStep_unitB (ie : Bool) : (hostSetsIeStep ie s).unitB = s.unitB := rfl
@[simp] theorem hostSetsIeStep_color (ie : Bool) : (hostSetsIeStep ie s).color = s.color := rfl
@[simp] theorem hostSetsIeStep_life (ie : Bool) : (hostSetsIeStep ie s).life = s.life := rfl
@[simp] theorem hostSetsIeStep_ie (ie : Bool) : (hostSetsIeStep ie s).ie = ie := rfl
@[simp] theorem hostSetsIeStep_savedIe (ie : Bool) : (hostSetsIeStep ie s).savedIe = s.savedIe := rfl
@[simp] theorem hostSetsIeStep_fault (ie : Bool) : (hostSetsIeStep ie s).fault = s.fault := rfl
@[simp] theorem hostSetsIeStep_resp (ie : Bool) : (hostSetsIeStep ie s).resp = none := rfl
@[simp] theorem hostSetsIeStep_host (ie : Bool) : (hostSetsIeStep ie s).host = s.host := rfl
@[simp] theorem hostSetsIeStep_draw (ie : Bool) : (hostSetsIeStep ie s).draw = s.draw := rfl

/-! `takeMove` -/

@[simp] theorem takeMove_red : (takeMove s).red = s.red := rfl
@[simp] theorem takeMove_green : (takeMove s).green = s.green := rfl
@[simp] theorem takeMove_blue : (takeMove s).blue = s.blue := rfl
@[simp] theorem takeMove_unitA : (takeMove s).unitA = s.unitA := rfl
@[simp] theorem takeMove_unitB : (takeMove s).unitB = s.unitB := rfl
@[simp] theorem takeMove_color : (takeMove s).color = s.color := rfl
@[simp] theorem takeMove_life : (takeMove s).life = s.life := rfl
@[simp] theorem takeMove_ie : (takeMove s).ie = s.ie := rfl
@[simp] theorem takeMove_savedIe : (takeMove s).savedIe = s.savedIe := rfl
@[simp] theorem takeMove_fault : (takeMove s).fault = s.fault := rfl
@[simp] theorem takeMove_resp : (takeMove s).resp = s.resp := rfl
@[simp] theorem takeMove_host : (takeMove s).host = s.host.advance := rfl
@[simp] theorem takeMove_draw : (takeMove s).draw = s.draw + 1 := rfl

/-! `resetStep` -/

@[simp] theorem resetStep_red : (resetStep s).red = .reset := rfl
@[simp] theorem resetStep_green : (resetStep s).green = .reset := rfl
@[simp] theorem resetStep_blue : (resetStep s).blue = .reset := rfl
@[simp] theorem resetStep_unitA : (resetStep s).unitA = .reset := rfl
@[simp] theorem resetStep_unitB : (resetStep s).unitB = .reset := rfl
@[simp] theorem resetStep_color : (resetStep s).color = 0 := rfl
@[simp] theorem resetStep_life : (resetStep s).life = .uninitialized := rfl
@[simp] theorem resetStep_ie : (resetStep s).ie = s.ie := rfl
@[simp] theorem resetStep_savedIe : (resetStep s).savedIe = false := rfl
@[simp] theorem resetStep_fault : (resetStep s).fault = none := rfl
@[simp] theorem resetStep_resp : (resetStep s).resp = none := rfl
@[simp] theorem resetStep_host : (resetStep s).host = s.host := rfl
@[simp] theorem resetStep_draw : (resetStep s).draw = s.draw := rfl

/-! Access by channel and by unit -/

@[simp] theorem channel_red : s.channel .red = s.red := rfl
@[simp] theorem channel_green : s.channel .green = s.green := rfl
@[simp] theorem channel_blue : s.channel .blue = s.blue := rfl
@[simp] theorem counter_a : s.counter .a = s.unitA := rfl
@[simp] theorem counter_b : s.counter .b = s.unitB := rfl

/-- A channel reads back what was written to it, and every other channel reads as before. -/
@[simp] theorem channel_setChannel (c d : Channel) (v : PwmChannel) :
    (s.setChannel c v).channel d = if d = c then v else s.channel d := by
  cases c <;> cases d <;> rfl

/-- A unit reads back what was written to it, and the other reads as before. -/
@[simp] theorem counter_setCounter (u w : UnitId) (v : CounterUnit) :
    (s.setCounter u v).counter w = if w = u then v else s.counter w := by
  cases u <;> cases w <;> rfl

@[simp] theorem setChannel_unitA (c : Channel) (v : PwmChannel) : (s.setChannel c v).unitA = s.unitA := by cases c <;> rfl
@[simp] theorem setChannel_unitB (c : Channel) (v : PwmChannel) : (s.setChannel c v).unitB = s.unitB := by cases c <;> rfl
@[simp] theorem setChannel_color (c : Channel) (v : PwmChannel) : (s.setChannel c v).color = s.color := by cases c <;> rfl
@[simp] theorem setChannel_life (c : Channel) (v : PwmChannel) : (s.setChannel c v).life = s.life := by cases c <;> rfl
@[simp] theorem setChannel_ie (c : Channel) (v : PwmChannel) : (s.setChannel c v).ie = s.ie := by cases c <;> rfl
@[simp] theorem setChannel_savedIe (c : Channel) (v : PwmChannel) : (s.setChannel c v).savedIe = s.savedIe := by cases c <;> rfl
@[simp] theorem setChannel_fault (c : Channel) (v : PwmChannel) : (s.setChannel c v).fault = s.fault := by cases c <;> rfl
@[simp] theorem setChannel_resp (c : Channel) (v : PwmChannel) : (s.setChannel c v).resp = s.resp := by cases c <;> rfl
@[simp] theorem setChannel_host (c : Channel) (v : PwmChannel) : (s.setChannel c v).host = s.host := by cases c <;> rfl
@[simp] theorem setChannel_draw (c : Channel) (v : PwmChannel) : (s.setChannel c v).draw = s.draw := by cases c <;> rfl

@[simp] theorem setCounter_red (u : UnitId) (v : CounterUnit) : (s.setCounter u v).red = s.red := by cases u <;> rfl
@[simp] theorem setCounter_green (u : UnitId) (v : CounterUnit) : (s.setCounter u v).green = s.green := by cases u <;> rfl
@[simp] theorem setCounter_blue (u : UnitId) (v : CounterUnit) : (s.setCounter u v).blue = s.blue := by cases u <;> rfl
@[simp] theorem setCounter_color (u : UnitId) (v : CounterUnit) : (s.setCounter u v).color = s.color := by cases u <;> rfl
@[simp] theorem setCounter_life (u : UnitId) (v : CounterUnit) : (s.setCounter u v).life = s.life := by cases u <;> rfl
@[simp] theorem setCounter_ie (u : UnitId) (v : CounterUnit) : (s.setCounter u v).ie = s.ie := by cases u <;> rfl
@[simp] theorem setCounter_savedIe (u : UnitId) (v : CounterUnit) : (s.setCounter u v).savedIe = s.savedIe := by cases u <;> rfl
@[simp] theorem setCounter_fault (u : UnitId) (v : CounterUnit) : (s.setCounter u v).fault = s.fault := by cases u <;> rfl
@[simp] theorem setCounter_resp (u : UnitId) (v : CounterUnit) : (s.setCounter u v).resp = s.resp := by cases u <;> rfl
@[simp] theorem setCounter_host (u : UnitId) (v : CounterUnit) : (s.setCounter u v).host = s.host := by cases u <;> rfl
@[simp] theorem setCounter_draw (u : UnitId) (v : CounterUnit) : (s.setCounter u v).draw = s.draw := by cases u <;> rfl

end Sys2Proof.Machine
end

