-- ==== Sys2Proof/Laws/Ops.lean ====
section
/-! SUPPORT. What each shared operation and each command's writes do, said once. Provers cite these and do not unfold. -/

namespace Sys2Proof.Machine

variable (s : State)

/-- What a critical section leaves, whatever its body does. -/
theorem criticalSection_eq (body : State → State) :
    criticalSection body s
      = { body { s with savedIe := s.ie, ie := false } with ie := (body { s with savedIe := s.ie, ie := false }).savedIe } :=
  rfl

/-- `INIT`'s writes in one record. -/
theorem initWrites_eq :
    initWrites s =
      { s with
        unitA := .configured 0
        unitB := .configured Config.phaseB0.val
        red := { cmp := 0, com := false, latch := true, oe := true }
        green := { cmp := 0, com := false, latch := true, oe := true }
        blue := { cmp := 0, com := false, latch := true, oe := true }
        life := .disabled } := rfl

/-- `ENABLE`'s writes in one record. -/
theorem enableWrites_eq :
    enableWrites s =
      { s with
        red := { s.red with com := true }
        green := { s.green with com := true }
        blue := { s.blue with com := true }
        savedIe := s.ie
        life := .enabled } := rfl

/-- `DISABLE`'s writes in one record. -/
theorem disableWrites_eq :
    disableWrites s =
      { s with
        red := { s.red with com := false, latch := true }
        green := { s.green with com := false, latch := true }
        blue := { s.blue with com := false, latch := true }
        savedIe := s.ie
        life := .disabled } := rfl

/-- `SETCOLOR`'s writes in one record. -/
theorem setcolorWrites_eq (r g b : Intensity) :
    setcolorWrites r g b s =
      { s with
        color := packColor r g b
        red := { s.red with cmp := lookup r }
        green := { s.green with cmp := lookup g }
        blue := { s.blue with cmp := lookup b }
        savedIe := s.ie } := rfl

/-- A raised fault is a next state: the mark and no response, nothing else. -/
theorem raiseFault_eq (m : FaultMark) : raiseFault m s = .next { s with fault := some m, resp := none } := rfl

variable {s}

/-- The entry checks of a command, for every case: stop, misuse, or the command's own effect. -/
theorem beginCommand_of_faulted {m : FaultMark} (h : s.fault = some m) (cmd : CommandName)
    (go : Host.Outcome State Fault Refusal) : beginCommand cmd s go = .fault (.commandInFaultedState m) := by
  simp only [beginCommand, unlessFaulted, h]

theorem beginCommand_of_misuse (h : s.fault = none) {cmd : CommandName} (hl : legalIn cmd s.life = false)
    (go : Host.Outcome State Fault Refusal) :
    beginCommand cmd s go = .next { s with fault := some (.lifecycleMisuse cmd s.life), resp := none } := by
  simp only [beginCommand, unlessFaulted, h, hl]; rfl

theorem beginCommand_of_legal (h : s.fault = none) {cmd : CommandName} (hl : legalIn cmd s.life = true)
    (go : Host.Outcome State Fault Refusal) : beginCommand cmd s go = go := by
  simp only [beginCommand, unlessFaulted, h, hl, if_true]

/-- If a command with its entry checks answers a next state, the state was unfaulted, and the answer is the misuse mark or
the command's own effect. -/
theorem beginCommand_next {cmd : CommandName} {go : Host.Outcome State Fault Refusal} {t : State}
    (h : beginCommand cmd s go = .next t) :
    s.fault = none ∧
      ((legalIn cmd s.life = false ∧ t = { s with fault := some (.lifecycleMisuse cmd s.life), resp := none })
        ∨ (legalIn cmd s.life = true ∧ go = .next t)) := by
  cases hf : s.fault with
  | some m => rw [beginCommand_of_faulted hf] at h; cases h
  | none =>
    refine ⟨rfl, ?_⟩
    cases hl : legalIn cmd s.life with
    | false => rw [beginCommand_of_misuse hf hl] at h; injection h with h; exact .inl ⟨rfl, h.symm⟩
    | true => rw [beginCommand_of_legal hf hl] at h; exact .inr ⟨rfl, h⟩

/-- A reserved word in an unfaulted state. -/
theorem illegalCommand_of_unfaulted (h : s.fault = none) (w : Word) :
    illegalCommand w s = .next { s with fault := some (.illegalCommand w), resp := none } := by
  simp only [illegalCommand, unlessFaulted, h]; rfl

/-- A reserved word in a faulted state. -/
theorem illegalCommand_of_faulted {m : FaultMark} (h : s.fault = some m) (w : Word) :
    illegalCommand w s = .fault (.commandInFaultedState m) := by
  simp only [illegalCommand, unlessFaulted, h]

/-- Everything a command can do when it answers a next state: the misuse mark, `INIT`'s other mark, or the writes of the
command in a state where it is legal. -/
inductive CommandEffect : Instr → State → State → Prop
  | misuse {i : Instr} {s : State} (illegal : legalIn i.name s.life = false) :
      CommandEffect i s { s with fault := some (.lifecycleMisuse i.name s.life), resp := none }
  | preemptible {s : State} (life : s.life = .uninitialized) (on : s.ie = true) :
      CommandEffect .init s { s with fault := some .initPreemptible, resp := none }
  | init {s : State} (life : s.life = .uninitialized) (off : s.ie = false) :
      CommandEffect .init s (noResponse (initWrites s))
  | enable {s : State} (life : s.life ≠ .uninitialized) : CommandEffect .enable s (noResponse (enableWrites s))
  | disable {s : State} (life : s.life ≠ .uninitialized) : CommandEffect .disable s (noResponse (disableWrites s))
  | setcolor {r g b : Intensity} {s : State} (life : s.life ≠ .uninitialized) :
      CommandEffect (.setcolor r g b) s (noResponse (setcolorWrites r g b s))
  | getcolor {s : State} (life : s.life ≠ .uninitialized) :
      CommandEffect .getcolor s (respond (responseWord s.color) s)

/-- `legalIn` for `INIT`. -/
theorem legalIn_init {life : Life} : legalIn .init life = true ↔ life = .uninitialized := by
  cases life <;> decide

/-- `legalIn` for the other four commands. -/
theorem legalIn_other {cmd : CommandName} (h : cmd ≠ .init) {life : Life} :
    legalIn cmd life = true ↔ life ≠ .uninitialized := by
  cases cmd <;> first | exact absurd rfl h | (cases life <;> decide)

/-- If a command answers a next state, the state was unfaulted and one of the effects happened. -/
theorem exec_next {i : Instr} {t : State} (h : exec i s = .next t) : s.fault = none ∧ CommandEffect i s t := by
  cases i with
  | init =>
    obtain ⟨hf, ⟨hl, rfl⟩ | ⟨hl, hg⟩⟩ := beginCommand_next (cmd := .init) h
    · exact ⟨hf, .misuse (i := .init) hl⟩
    · have hlife := legalIn_init.mp hl
      cases hi : s.ie with
      | true => rw [hi] at hg; injection hg with hg; subst hg; exact ⟨hf, .preemptible hlife hi⟩
      | false => rw [hi] at hg; injection hg with hg; subst hg; exact ⟨hf, .init hlife hi⟩
  | enable =>
    obtain ⟨hf, ⟨hl, rfl⟩ | ⟨hl, hg⟩⟩ := beginCommand_next (cmd := .enable) h
    · exact ⟨hf, .misuse (i := .enable) hl⟩
    · injection hg with hg; subst hg; exact ⟨hf, .enable ((legalIn_other (by decide)).mp hl)⟩
  | disable =>
    obtain ⟨hf, ⟨hl, rfl⟩ | ⟨hl, hg⟩⟩ := beginCommand_next (cmd := .disable) h
    · exact ⟨hf, .misuse (i := .disable) hl⟩
    · injection hg with hg; subst hg; exact ⟨hf, .disable ((legalIn_other (by decide)).mp hl)⟩
  | setcolor r g b =>
    obtain ⟨hf, ⟨hl, rfl⟩ | ⟨hl, hg⟩⟩ := beginCommand_next (cmd := .setcolor) h
    · exact ⟨hf, .misuse (i := .setcolor r g b) hl⟩
    · injection hg with hg; subst hg; exact ⟨hf, .setcolor ((legalIn_other (by decide)).mp hl)⟩
  | getcolor =>
    obtain ⟨hf, ⟨hl, rfl⟩ | ⟨hl, hg⟩⟩ := beginCommand_next (cmd := .getcolor) h
    · exact ⟨hf, .misuse (i := .getcolor) hl⟩
    · injection hg with hg; subst hg; exact ⟨hf, .getcolor ((legalIn_other (by decide)).mp hl)⟩

end Sys2Proof.Machine
end

