-- ==== Sys2Proof/Laws/PerInstr.lean ====
section
/-! SUPPORT. The per-instruction family: each command's encoded word selects that command's row of `opcode_table.json`
(`30_encoding.md` R92). -/

namespace Sys2Proof.Laws.SelectsRow

/-- The encoded word selects a row of the table, and the row is the command's. -/
def Statement (i : Instr) : Prop := ∃ row ∈ opcodeTable, row.selects (encode i) = true ∧ row.name = i.name

theorem init : Statement .init := ⟨opcodeTable[0], by decide, by decide, rfl⟩

theorem enable : Statement .enable := ⟨opcodeTable[1], by decide, by decide, rfl⟩

theorem disable : Statement .disable := ⟨opcodeTable[2], by decide, by decide, rfl⟩

theorem setcolor (r g b : Intensity) : Statement (.setcolor r g b) := by
  refine ⟨opcodeTable[3], by decide, ?_, rfl⟩
  have h : ∀ i, i < 32 → (encode (.setcolor r g b) &&& 0xFF000000 : Word).getLsbD i = (0x04000000 : Word).getLsbD i := by
    intro i hi
    by_cases h24 : i < 24
    · have hm : (0xFF000000 : Word).getLsbD i = false := by
        have : ∀ j : Fin 24, (0xFF000000 : Word).getLsbD j.val = false := by decide
        exact this ⟨i, h24⟩
      have hp : (0x04000000 : Word).getLsbD i = false := by
        have : ∀ j : Fin 24, (0x04000000 : Word).getLsbD j.val = false := by decide
        exact this ⟨i, h24⟩
      rw [BitVec.getLsbD_and, hm, hp, Bool.and_false]
    · have hop : (encode (.setcolor r g b)).getLsbD i = (0x04 : BitVec 8).getLsbD (i - 24) := by
        change (formatC CommandName.setcolor.opcode r g b).getLsbD i = CommandName.setcolor.opcode.getLsbD (i - 24)
        have := congrArg (fun v => v.getLsbD (i - 24)) (opField_formatC CommandName.setcolor.opcode r g b)
        simpa [opField, BitVec.getLsbD_extractLsb', show i - 24 < 8 by omega, show 24 + (i - 24) = i by omega] using this
      have : ∀ j : Fin 8, ((0x04 : BitVec 8).getLsbD j.val && (0xFF000000 : Word).getLsbD (24 + j.val))
          = (0x04000000 : Word).getLsbD (24 + j.val) := by decide
      have := this ⟨i - 24, by omega⟩
      rw [BitVec.getLsbD_and, hop]
      simpa [show 24 + (i - 24) = i by omega] using this
  exact beq_iff_eq.mpr (BitVec.eq_of_getLsbD_eq h)

theorem getcolor : Statement .getcolor := ⟨opcodeTable[4], by decide, by decide, rfl⟩

end Sys2Proof.Laws.SelectsRow
end

