-- ==== Sys2Proof/Laws/Step.lean ====
section
/-! SUPPORT. Everything a step can do, said once: which move was made and what it left. -/

namespace Sys2Proof.Machine

/-- Everything a step can do when it answers a next state, with the move that did it. The state on the left is the one in
which the move is made. -/
inductive StepEffect : Move → State → State → Prop
  | command {w : Word} {i : Instr} {s t : State} (decoded : decode w = .ok i) (unfaulted : s.fault = none)
      (effect : CommandEffect i s t) : StepEffect (.command w) s t
  | reserved {w : Word} {r : ReservedWord} {s : State} (rejected : decode w = .error r) (unfaulted : s.fault = none) :
      StepEffect (.command w) s { s with fault := some (.illegalCommand w), resp := none }
  | tick {s : State} : StepEffect .tick s (tickStep s)
  | hostSetsIe {ie : Bool} {s : State} : StepEffect (.hostSetsIe ie) s (hostSetsIeStep ie s)
  | rst {lost : Option Word} {lostTick : Bool} {s : State} : StepEffect (.rst lost lostTick) s (resetStep s)

/-- A decoded word runs its command. -/
theorem commandStep_of_ok {w : Word} {i : Instr} (h : decode w = .ok i) (s : State) : commandStep w s = exec i s := by
  simp only [commandStep, h]

/-- A rejected word is an illegal command. -/
theorem commandStep_of_error {w : Word} {r : ReservedWord} (h : decode w = .error r) (s : State) :
    commandStep w s = illegalCommand w s := by
  simp only [commandStep, h]

/-- If one move answers a next state, one of the effects happened. -/
theorem moveStep_next {m : Move} {s t : State} (h : moveStep m s = .next t) : StepEffect m s t := by
  cases m with
  | command w =>
    change commandStep w s = .next t at h
    cases hd : decode w with
    | ok i =>
      rw [commandStep_of_ok hd] at h
      obtain ⟨hf, he⟩ := exec_next h
      exact .command hd hf he
    | error r =>
      rw [commandStep_of_error hd] at h
      cases hf : s.fault with
      | some m => rw [illegalCommand_of_faulted hf] at h; cases h
      | none => rw [illegalCommand_of_unfaulted hf] at h; injection h with h; subst h; exact .reserved hd hf
  | tick => injection h with h; subst h; exact .tick
  | hostSetsIe ie => injection h with h; subst h; exact .hostSetsIe
  | rst lost lostTick => injection h with h; subst h; exact .rst

/-- If a step answers a next state, one of the effects happened in the state in which its move is made. -/
theorem step_next {s t : State} (h : step s = .next t) : StepEffect (nextMove s) (takeMove s) t := moveStep_next h

/-- Past the end of the list only the tick moves. -/
theorem nextMove_of_past_end {s : State} (h : s.host.script.length ≤ s.host.index) : nextMove s = .tick := by
  simp only [nextMove, List.getElem?_eq_none h, Option.getD_none]

/-- The move at the index is the next one. -/
theorem nextMove_of_getElem? {s : State} {m : Move} (h : s.host.script[s.host.index]? = some m) : nextMove s = m := by
  simp only [nextMove, h, Option.getD_some]

/-- Taking a move leaves the host's list and moves its index on, but not past the end. -/
@[simp] theorem advance_script (h : HostAgent) : h.advance.script = h.script := rfl
@[simp] theorem advance_responses (h : HostAgent) : h.advance.responses = h.responses := rfl
theorem advance_index (h : HostAgent) :
    h.advance.index = if h.index < h.script.length then h.index + 1 else h.index := rfl

/-- A move put where the next one is taken is the next one. -/
theorem insertNext_getElem? (h : HostAgent) (m : Move) :
    (h.insertNext m).script[(h.insertNext m).index]? = some m := by
  have hl : (h.script.take h.index).length = min h.index h.script.length := List.length_take
  simp only [HostAgent.insertNext]
  rw [List.getElem?_append_right (by omega), hl, Nat.sub_self]
  rfl

end Sys2Proof.Machine
end

