-- ==== Sys2Proof/Tests/Slice0.lean ====
section
/-! SUPPORT. Tests against the vectors of `95_test_vectors.md` and the worked examples of the rules, and for every statement
with hypotheses a state that meets them. Each test names its vector; no expected value comes from the model. -/

namespace Sys2Proof.Tests

open Sys2Proof Sys2Proof.Machine Sys2Proof.Safety

/-! ### The checks refuse ill-formed terms (`30_encoding.md` R89, `00_scope.md` R6, R7) -/

theorem test_wf_accepts_operand_bounds : (AsmCommand.setcolor 0 255 255).wf = true := by decide
theorem test_wf_refuses_red : (AsmCommand.setcolor 256 0 0).wf = false := by decide
theorem test_wf_refuses_green : (AsmCommand.setcolor 0 256 0).wf = false := by decide
theorem test_wf_refuses_blue : (AsmCommand.setcolor 0 0 256).wf = false := by decide

/-- The stand-in table of `95_test_vectors.md` section 4, as a proposed configuration. -/
def standIn : ConfigCandidate := { timerWidth := 16, table := (List.range 256).map Config.witnessEntry, phaseB0 := 131069 }

theorem test_stand_in_samples :
    [0, 1, 2, 10, 64, 127, 128, 129, 130, 200, 254, 255].map Config.witnessEntry
      = [0, 16, 32, 160, 1024, 2032, 2048, 2547, 3047, 38040, 65035, 65535] := by decide
set_option maxRecDepth 8000 in
theorem test_config_accepted : standIn.wf = true := by decide
theorem test_config_refuses_width : { standIn with timerWidth := 8 }.wf = false := by decide
set_option maxRecDepth 8000 in
theorem test_config_refuses_length : { standIn with table := standIn.table ++ [65535] }.wf = false := by decide
set_option maxRecDepth 8000 in
theorem test_config_refuses_first : { standIn with table := standIn.table.set 0 1 }.wf = false := by decide
set_option maxRecDepth 8000 in
theorem test_config_refuses_middle : { standIn with table := standIn.table.set 128 2049 }.wf = false := by decide
set_option maxRecDepth 8000 in
theorem test_config_refuses_last : { standIn with table := standIn.table.set 255 65534 }.wf = false := by decide
set_option maxRecDepth 8000 in
theorem test_config_refuses_falling : { standIn with table := standIn.table.set 10 9999 }.wf = false := by decide
set_option maxRecDepth 8000 in
theorem test_config_refuses_phase : { standIn with phaseB0 := 131070 }.wf = false := by decide

/-! ### Decoding: the words of `30_encoding.md` R91 and `95_test_vectors.md` 2.1, bit by bit from R81 and R82 -/

theorem test_decode_init : decode 0b00000001_00000000_00000000_00000000#32 = .ok .init := rfl
theorem test_decode_enable : decode 0b00000010_00000000_00000000_00000000#32 = .ok .enable := rfl
theorem test_decode_disable : decode 0b00000011_00000000_00000000_00000000#32 = .ok .disable := rfl
theorem test_decode_setcolor : decode 0b00000100_00000001_00000010_00000011#32 = .ok (.setcolor 1 2 3) := rfl
theorem test_decode_getcolor : decode 0b00000101_00000000_00000000_00000000#32 = .ok .getcolor := rfl
theorem test_decode_zero_word : decode 0x00000000 = .error ⟨.opcodeZero, 0x00000000⟩ := rfl
theorem test_decode_opcode_zero_operands : decode 0x00FFFFFF = .error ⟨.opcodeZero, 0x00FFFFFF⟩ := rfl
theorem test_decode_init_operand_bit : decode 0x01000001 = .error ⟨.operandBitsSet, 0x01000001⟩ := rfl
theorem test_decode_enable_operand_bit : decode 0x02800000 = .error ⟨.operandBitsSet, 0x02800000⟩ := rfl
theorem test_decode_getcolor_operands : decode 0x05FFFFFF = .error ⟨.operandBitsSet, 0x05FFFFFF⟩ := rfl
theorem test_decode_first_undefined : decode 0x06000000 = .error ⟨.opcodeUndefined, 0x06000000⟩ := rfl
theorem test_decode_all_ones : decode 0xFFFFFFFF = .error ⟨.opcodeUndefined, 0xFFFFFFFF⟩ := rfl
theorem test_table_word : decodeTableWord 32 0x048000FF = some (.setcolor 128 0 255) := by decide
theorem test_table_word_reserved : decodeTableWord 32 0x06000000 = none := by decide

/-! ### Listings (`30_encoding.md` R89) -/

theorem test_listing :
    assembleListing ["INIT ; first".toList, "".toList, "SETCOLOR 128, 0x00, 0xff".toList, "GETCOLOR".toList]
      = some [.init, .setcolor 128 0 255, .getcolor] := by decide
theorem test_listing_operand_error : assembleListing ["SETCOLOR 256, 0, 0".toList] = none := by decide
theorem test_listing_lower_case_error : assembleListing ["init".toList] = none := by decide
/-- R89, and P1 of `95_test_vectors.md`: the response in a comment and outside one (notes/assumptions/22.md). -/
theorem test_listing_shows_response :
    assembleListing ["GETCOLOR ; -> (128, 0, 255)".toList, "GETCOLOR -> (128, 0, 255)".toList] = some [.getcolor, .getcolor] := by
  decide
theorem test_listing_response_after_other_command_error : assembleListing ["INIT -> (1, 2, 3)".toList] = none := by decide
theorem test_show_response : showResponse 0x008000FF = "-> (128, 0, 255)".toList := by decide

/-! ### States -/

/-- A channel after `INIT`, with its compare value and its connect bit. -/
def channelWith (cmp : Count) (com : Bool) : PwmChannel := { cmp := cmp, com := com, latch := true, oe := true }

/-- The start states `D` and `E` of `95_test_vectors.md` 2.4: colour `(9, 8, 7)`, both counters at position 500, `IE = 1`. -/
def startState (life : Life) (com : Bool) : State :=
  { State.reset with
    red := channelWith (lookup 9) com, green := channelWith (lookup 8) com, blue := channelWith (lookup 7) com
    unitA := .configured 500, unitB := .configured 500
    color := packColor 9 8 7, life := life, ie := true }

abbrev stateD : State := startState .disabled false
abbrev stateE : State := startState .enabled true

/-- `s` with one command word to come. -/
def presenting (w : Word) (s : State) : State := s.withFetchWord 32 w.toNat

/-- `s` with one move to come. -/
def facing (m : Move) (s : State) : State := { s with host := { script := [m], index := 0, responses := [] } }

/-- A state as `INIT` leaves it, in `Disabled` or `Enabled`. -/
def blackState (life : Life) (com : Bool) : State :=
  { State.reset with
    red := channelWith 0 com, green := channelWith 0 com, blue := channelWith 0 com
    unitA := .configured 0, unitB := .configured Config.phaseB0.val, life := life }

/-- A black state meets `10_state.md` R36 when the connect bits say what `LIFE` says. -/
theorem blackState_consistent (life : Life) (com : Bool) (h : life = .disabled ∧ com = false ∨ life = .enabled ∧ com = true) :
    RegistersConsistent (blackState life com) ∧ Initialised (blackState life com) := by
  have hb : Config.phaseB0.val < 131070 := Config.phaseB0.isLt
  have hp : Config.phaseB0.val % 131070 = (0 % 131070 + Config.phaseB0.val) % 131070 := by simp
  obtain ⟨rfl, rfl⟩ | ⟨rfl, rfl⟩ := h
  · exact ⟨⟨fun h => (by cases h), fun _ u => by cases u <;> exact ⟨rfl, rfl⟩, fun _ c => by cases c <;> exact ⟨rfl, rfl⟩,
      fun _ c => by cases c <;> simp [blackState, State.reset, channelWith, State.channel],
      fun _ c => by cases c <;> rfl, fun h => (by cases h),
      fun _ => by simpa only [blackState, configured_position, Config.period] using hp,
      fun _ u => by cases u <;> exact tri_turns _⟩, fun h => by cases h⟩
  · exact ⟨⟨fun h => (by cases h), fun _ u => by cases u <;> exact ⟨rfl, rfl⟩, fun _ c => by cases c <;> exact ⟨rfl, rfl⟩,
      fun _ c => by cases c <;> simp [blackState, State.reset, channelWith, State.channel],
      fun h => (by cases h), fun _ c => by cases c <;> rfl,
      fun _ => by simpa only [blackState, configured_position, Config.period] using hp,
      fun _ u => by cases u <;> exact tri_turns _⟩, fun h => by cases h⟩

abbrev blackDisabled : State := blackState .disabled false
abbrev blackEnabled : State := blackState .enabled true

theorem blackDisabled_consistent : RegistersConsistent blackDisabled := (blackState_consistent _ _ (.inl ⟨rfl, rfl⟩)).1
theorem blackEnabled_consistent : RegistersConsistent blackEnabled := (blackState_consistent _ _ (.inr ⟨rfl, rfl⟩)).1

/-! ### Commands (`95_test_vectors.md` 2.3, 2.4) -/

/-- V-L1 -/
theorem test_init_from_reset :
    ∃ t, exec .init State.reset = .next t ∧ t.life = .disabled ∧ t.unitA = ⟨.phaseCorrect, true, 0, .up⟩
      ∧ t.blue = ⟨0, false, true, true⟩ ∧ t.ie = false := ⟨_, rfl, rfl, rfl, rfl, rfl⟩

/-- V-L7: the counters are not restarted. -/
theorem test_init_twice_is_misuse :
    ∃ t, exec .init stateD = .next t ∧ t.fault = some (.lifecycleMisuse .init .disabled) ∧ t.unitA.cnt = 500 :=
  ⟨_, rfl, rfl, rfl⟩

/-- V-L8 -/
theorem test_enable_from_disabled :
    ∃ t, exec .enable stateD = .next t ∧ t.life = .enabled ∧ (t.red.com, t.green.com, t.blue.com) = (true, true, true)
      ∧ t.ie = true := ⟨_, rfl, rfl, rfl, rfl⟩

/-- V-L3 -/
theorem test_enable_before_init :
    ∃ t, exec .enable State.reset = .next t ∧ t.fault = some (.lifecycleMisuse .enable .uninitialized)
      ∧ t.red.com = false := ⟨_, rfl, rfl, rfl⟩

/-- V-L14 -/
theorem test_disable_from_enabled :
    ∃ t, exec .disable stateE = .next t ∧ t.life = .disabled ∧ t.green = channelWith (lookup 8) false
      ∧ t.color = packColor 9 8 7 ∧ t.unitB = .configured 500 := ⟨_, rfl, rfl, rfl, rfl, rfl⟩

/-- V-L4 -/
theorem test_disable_before_init :
    ∃ t, exec .disable State.reset = .next t ∧ t.fault = some (.lifecycleMisuse .disable .uninitialized) := ⟨_, rfl, rfl⟩

/-- V-L15: the compare values, and the pins `(0, 1, 0)` at position 500 at once. -/
theorem test_setcolor_enabled :
    ∃ t, exec (.setcolor 128 0 255) stateE = .next t ∧ t.red.cmp = 2048 ∧ t.green.cmp = 0 ∧ t.blue.cmp = 65535
      ∧ (pinLevel t .red, pinLevel t .green, pinLevel t .blue) = (.low, .high, .low) := by
  refine ⟨_, rfl, lookup_middle, lookup_zero, lookup_last, ?_⟩
  change (driverLevel ⟨lookup 128, true, true, true⟩ (activeAt 500 .up (lookup 128)),
    driverLevel ⟨lookup 0, true, true, true⟩ (activeAt 500 .up (lookup 0)),
    driverLevel ⟨lookup 255, true, true, true⟩ (activeAt 500 .up (lookup 255))) = _
  rw [show lookup 128 = 2048 from lookup_middle, show lookup 0 = 0 from lookup_zero, show lookup 255 = 65535 from lookup_last]
  decide

/-- V-P2: not re-enabled. -/
theorem test_setcolor_keeps_interrupts_off :
    ∃ t, exec (.setcolor 1 2 3) { stateE with ie := false } = .next t ∧ t.ie = false ∧ colorField t.color .green = 2 :=
  ⟨_, rfl, rfl, colorField_green_packColor 1 2 3⟩

/-- V-L11 -/
theorem test_getcolor_disabled : ∃ t, exec .getcolor stateD = .next t ∧ t.resp = some 0x00090807 := ⟨_, rfl, by decide⟩

/-- V-L6: no response. -/
theorem test_getcolor_before_init :
    ∃ t, exec .getcolor State.reset = .next t ∧ t.fault = some (.lifecycleMisuse .getcolor .uninitialized) ∧ t.resp = none :=
  ⟨_, rfl, rfl, rfl⟩

/-- V-L2 -/
theorem test_init_with_interrupts_on :
    ∃ t, exec .init { State.reset with ie := true } = .next t ∧ t.fault = some .initPreemptible ∧ t.life = .uninitialized :=
  ⟨_, rfl, rfl, rfl⟩

/-- V-L18 -/
theorem test_reserved_word_before_misuse :
    ∃ t, step (presenting 0x01000001 stateE) = .next t ∧ t.fault = some (.illegalCommand 0x01000001) := ⟨_, rfl, rfl⟩

/-- V-L17: the mark stays, and the command has no meaning. -/
theorem test_faulted_state_stops :
    step (presenting 0x02000000 { stateE with fault := some .initPreemptible }) = .fault (.commandInFaultedState .initPreemptible) :=
  rfl

/-! ### The other agents -/

theorem test_tick_moves_both :
    ∃ t, step (facing .tick stateE) = .next t ∧ t.unitA.cnt = 501 ∧ t.unitB.cnt = 501 := ⟨_, rfl, by decide, by decide⟩
theorem test_past_the_end_only_ticks : ∃ t, step stateE = .next t ∧ t.unitA.cnt = 501 := ⟨_, rfl, by decide⟩
theorem test_counters_stand_before_init : ∃ t, step State.reset = .next t ∧ t.unitA = State.reset.unitA := ⟨_, rfl, rfl⟩
theorem test_host_sets_ie : ∃ t, step (facing (.hostSetsIe false) stateE) = .next t ∧ t.ie = false := ⟨_, rfl, rfl⟩
theorem test_reset_discards_a_command :
    ∃ t, step (facing (.rst (some 0x03000000) true) stateE) = .next t ∧ t.life = .uninitialized ∧ t.unitA.run = false
      ∧ t.color = 0 := ⟨_, rfl, rfl, rfl, rfl⟩

/-! ### Counters, comparator, pins (`95_test_vectors.md` 2.6, 2.7, 2.8) -/

theorem test_tri_vectors :
    [0, 1, 65533, 65534, 65535, 65536, 131068, 131069, 131075, 262139].map tri
      = [(0, .up), (1, .up), (65533, .up), (65534, .up), (65535, .down), (65534, .down), (2, .down), (1, .down), (5, .up),
         (1, .down)] := by decide
theorem test_tick_turns_at_the_top : (CounterUnit.configured 65534).tick = ⟨.phaseCorrect, true, 65535, .down⟩ := by decide
theorem test_tick_turns_at_the_bottom : (CounterUnit.configured 131069).tick = ⟨.phaseCorrect, true, 0, .up⟩ := by decide
theorem test_tick_leaves_the_top : (CounterUnit.configured 65535).tick = ⟨.phaseCorrect, true, 65534, .down⟩ := by decide
theorem test_active_at_2048 :
    [0, 2047, 2048, 65535, 129021, 129022, 131069].map (fun p => activeAt (tri p).1 (tri p).2 2048)
      = [true, true, false, false, false, true, true] := by decide
theorem test_active_at_1 :
    [0, 1, 131068, 131069].map (fun p => activeAt (tri p).1 (tri p).2 1) = [true, false, false, true] := by decide
theorem test_active_at_65534 :
    [65533, 65534, 65535, 65536].map (fun p => activeAt (tri p).1 (tri p).2 65534) = [true, false, false, true] := by decide
theorem test_pin_driver_rows :
    (driverLevel ⟨0, true, true, false⟩ true, driverLevel ⟨0, false, true, true⟩ true, driverLevel ⟨0, true, true, true⟩ false,
      driverLevel ⟨0, true, true, true⟩ true, driverLevel ⟨0, false, false, true⟩ false)
      = (.z, .high, .high, .low, .low) := by decide

/-! ### Witnesses: every statement's hypotheses are met together -/

theorem witness_WorkedEncodingsDecode :
    ∃ s : State, s.fault = none ∧ Initialised s ∧ s.color = packColor 128 0 255 :=
  ⟨{ stateD with color := packColor 128 0 255 }, rfl, fun h => (by cases h), rfl⟩

theorem witness_DecodeAndEncodeAreInverse :
    decode 0x01000000 = .ok .init ∧ decode 0x05000000 = .ok .getcolor ∧ decode 0x04FFFFFF = .ok (.setcolor 255 255 255) :=
  ⟨rfl, rfl, rfl⟩

theorem witness_ReservedWordsAreTheThreeClasses :
    (decode 0x00000000 = .error ⟨.opcodeZero, 0⟩ ∧ decode 0x06000000 = .error ⟨.opcodeUndefined, 0x06000000⟩)
    ∧ decode 0x05000001 = .error ⟨.operandBitsSet, 0x05000001⟩ := ⟨⟨rfl, rfl⟩, rfl⟩

theorem witness_OpcodeTableRowsDecideTheCommand :
    (opcodeTable.map (·.selects 0x04FFFFFF) = [false, false, false, true, false])
    ∧ (opcodeTable.map (·.selects 0x05000000) = [false, false, false, false, true])
    ∧ (∀ a ∈ opcodeTable, a.selects 0x06000000 = false) := by decide

theorem witness_ListingOperandOutOfRangeIsError :
    (AsmCommand.setcolor 255 255 255).assemble = some (.setcolor 255 255 255) ∧ (AsmCommand.setcolor 0 256 0).assemble = none := by
  decide

/-- Both sides of the equivalence, each shown on its own. -/
theorem witness_AcceptedConfigurationHasTheFourProperties :
    standIn.wf = true ∧ standIn.timerWidth = 16 ∧ standIn.phaseB0 < 131070 ∧ standIn.table.length = 256
    ∧ ∃ g : Config.GammaTable, ∀ i : Intensity, standIn.table[i.toNat]? = some (g.entry i).toNat := by
  refine ⟨test_config_accepted, rfl, by decide, by simp [standIn], {}, fun i => ?_⟩
  have hi := i.isLt
  have hw : Config.witnessEntry i.toNat < 65536 := by unfold Config.witnessEntry; split <;> omega
  simp only [standIn, List.getElem?_map, List.getElem?_range hi, Option.map_some, BitVec.toNat_ofNat]
  rw [Nat.mod_eq_of_lt hw]

theorem witness_CommandStepRunsTheDecodedCommand :
    (presenting 0x02000000 stateD).host.script[(presenting 0x02000000 stateD).host.index]? = some (.command 0x02000000)
    ∧ decode 0x02000000 = .ok .enable := ⟨by decide, rfl⟩

theorem witness_PlacedWordRunsNext : decodeTableWord 32 0x02000000 = some .enable := by decide

theorem witness_ReservedWordMarksIllegalCommand :
    nextMove (presenting 0x06000000 stateD) = .command 0x06000000 ∧ decode 0x06000000 = .error ⟨.opcodeUndefined, 0x06000000⟩
    ∧ (presenting 0x06000000 stateD).fault = none := ⟨by decide, rfl, rfl⟩

theorem witness_ResetDiscardsWhateverWasThere :
    nextMove (facing (.rst (some 0x02000000) true) stateE) = .rst (some 0x02000000) true := rfl

theorem witness_HostIndexStaysInTheList :
    HostInRange (facing .tick stateE) ∧ ∃ t, step (facing .tick stateE) = .next t := ⟨Nat.zero_le _, _, rfl⟩

theorem witness_DrawCounterInfluencesNoRegister : ∃ t, step (presenting 0x02000000 stateD) = .next t := ⟨_, rfl⟩

theorem witness_LegalityTableDecidesMisuse :
    (State.reset.fault = none ∧ State.reset.life = .uninitialized ∧ State.reset.ie = false)
    ∧ (stateD.fault = none ∧ stateD.life ≠ .uninitialized ∧ Instr.enable.name ≠ .init)
    ∧ (RegistersConsistent blackEnabled ∧ blackEnabled.fault = none ∧ blackEnabled.life = .enabled)
    ∧ (RegistersConsistent blackDisabled ∧ blackDisabled.fault = none ∧ blackDisabled.life = .disabled) :=
  ⟨⟨rfl, rfl, rfl⟩, ⟨rfl, fun h => (by cases h), by decide⟩, ⟨blackEnabled_consistent, rfl, rfl⟩,
    blackDisabled_consistent, rfl, rfl⟩

theorem witness_InitConfiguresTheUnit :
    State.reset.fault = none ∧ State.reset.life = .uninitialized ∧ State.reset.ie = false := ⟨rfl, rfl, rfl⟩

theorem witness_InitLeavesEveryPinHigh :
    State.reset.fault = none ∧ State.reset.life = .uninitialized ∧ State.reset.ie = false ∧ State.reset.color = 0 :=
  ⟨rfl, rfl, rfl, rfl⟩

theorem witness_InitWithInterruptsOnIsMarked :
    ∃ s : State, s.fault = none ∧ s.life = .uninitialized ∧ s.ie = true := ⟨{ State.reset with ie := true }, rfl, rfl, rfl⟩

theorem witness_EnableConnectsAllChannels :
    (stateD.fault = none ∧ stateD.life = .disabled) ∧ (stateE.fault = none ∧ stateE.life = .enabled) :=
  ⟨⟨rfl, rfl⟩, rfl, rfl⟩

theorem witness_DisableDisconnectsAllChannels :
    (stateE.fault = none ∧ stateE.life = .enabled) ∧ (stateD.fault = none ∧ stateD.life = .disabled) :=
  ⟨⟨rfl, rfl⟩, rfl, rfl⟩

theorem witness_EnableShowsTheStoredColour :
    blackDisabled.fault = none ∧ Initialised blackDisabled ∧ RegistersConsistent blackDisabled ∧ blackDisabled.color = 0 :=
  ⟨rfl, fun h => (by cases h), blackDisabled_consistent, rfl⟩

theorem witness_LifecycleChangesOnlyAsDrawn :
    (∃ t, step (presenting 0x01000000 State.reset) = .next t ∧ t.life ≠ State.reset.life)
    ∧ (∃ t, step (presenting 0x02000000 stateD) = .next t ∧ t.life ≠ stateD.life)
    ∧ (∃ t, step (presenting 0x03000000 stateE) = .next t ∧ t.life ≠ stateE.life)
    ∧ ∃ t, step (facing (.rst none false) stateE) = .next t ∧ t.life ≠ stateE.life :=
  ⟨⟨_, rfl, fun h => (by cases h)⟩, ⟨_, rfl, fun h => (by cases h)⟩, ⟨_, rfl, fun h => (by cases h)⟩, _, rfl,
    fun h => by cases h⟩

theorem witness_SetcolorWritesCacheAndCompares :
    (stateD.fault = none ∧ stateD.life = .disabled) ∧ (stateE.fault = none ∧ stateE.life = .enabled) :=
  ⟨⟨rfl, rfl⟩, rfl, rfl⟩

theorem witness_GetcolorAnswersTheCache :
    (stateD.fault = none ∧ stateD.life = .disabled) ∧ (stateE.fault = none ∧ stateE.life = .enabled) :=
  ⟨⟨rfl, rfl⟩, rfl, rfl⟩

theorem witness_OnlyGetcolorDrivesAResponse :
    (∃ t, step (presenting 0x05000000 stateE) = .next t ∧ t.resp = some 0x00090807 ∧ t.fault = none)
    ∧ ∃ t, step (presenting 0x02000000 stateE) = .next t ∧ t.resp = none := ⟨⟨_, rfl, by decide, rfl⟩, _, rfl, rfl⟩

/-- `SETCOLOR 1, 2, 3`, then a tick and each permitted command, then `GETCOLOR`. -/
def roundTrip : State :=
  { stateD with
    host := { script := [.command (encode (.setcolor 1 2 3)), .tick, .command (encode .enable), .command (encode .disable),
                .command (encode .getcolor), .command (encode .getcolor), .tick]
              index := 0, responses := [] } }

theorem witness_SetThenGetAnswersTheColour :
    roundTrip.fault = none ∧ Initialised roundTrip ∧
    roundTrip.host.script.drop roundTrip.host.index
      = .command (encode (.setcolor 1 2 3)) ::
          ([.tick, .command (encode .enable), .command (encode .disable), .command (encode .getcolor)]
            ++ .command (encode .getcolor) :: [.tick]) := ⟨rfl, fun h => (by cases h), rfl⟩

theorem witness_LaterSetcolorLeavesNoMixture : stateE.fault = none ∧ Initialised stateE := ⟨rfl, fun h => by cases h⟩

theorem witness_RepeatedCommandLeavesTheSameState : stateD.fault = none ∧ Initialised stateD := ⟨rfl, fun h => by cases h⟩

theorem witness_NewCompareValueActsAtOnce : stateE.fault = none ∧ Initialised stateE := ⟨rfl, fun h => by cases h⟩

theorem witness_ComparesFollowTheCacheUntilReset :
    ∃ t u, exec (.setcolor 1 2 3) blackEnabled = .next t ∧ FaultFreeRun 1 t u
      ∧ (∀ m ∈ upcoming 1 t, ∀ lost lostTick, m ≠ .rst lost lostTick)
      ∧ blackEnabled.fault = none ∧ Initialised blackEnabled ∧ RegistersConsistent blackEnabled :=
  ⟨_, _, rfl, ⟨rfl, _, rfl, rfl, rfl⟩, fun m h => absurd h List.not_mem_nil, rfl, fun h => (by cases h),
    blackEnabled_consistent⟩

theorem witness_CriticalSectionRestoresInterruptEnable :
    (∀ t, (connectChannel .red t).ie = t.ie) ∧ (∀ t, (connectChannel .red t).savedIe = t.savedIe)
    ∧ ∃ t, exec .enable stateD = .next t := ⟨fun _ => rfl, fun _ => rfl, _, rfl⟩

theorem witness_OnlyTheHostChangesInterruptEnable :
    nextMove (facing (.hostSetsIe false) stateE) = .hostSetsIe false
    ∧ ∃ t, step (facing (.hostSetsIe false) stateE) = .next t ∧ t.ie ≠ stateE.ie := ⟨rfl, _, rfl, by decide⟩

theorem witness_RecordingAFaultWritesNothingElse :
    ∃ t, step (presenting 0x02000000 State.reset) = .next t ∧ State.reset.fault = none
      ∧ t.fault = some (.lifecycleMisuse .enable .uninitialized) := ⟨_, rfl, rfl, rfl⟩

theorem witness_FaultPriorityIsAsStated :
    (decode 0x01000001 = .error ⟨.operandBitsSet, 0x01000001⟩ ∧ stateE.fault = none ∧ stateE.life = .enabled ∧ stateE.ie = true)
    ∧ (decode 0x01000000 = .ok .init ∧ stateE.life ≠ .uninitialized)
    ∧ ∃ s : State, s.fault = none ∧ s.life = .uninitialized ∧ s.ie = true :=
  ⟨⟨rfl, rfl, rfl, rfl⟩, ⟨rfl, fun h => (by cases h)⟩, { State.reset with ie := true }, rfl, rfl, rfl⟩

theorem witness_FaultedStateStopsEveryCommand :
    nextMove (presenting 0x06000000 { stateE with fault := some .initPreemptible }) = .command 0x06000000
    ∧ (presenting 0x06000000 { stateE with fault := some .initPreemptible }).fault = some .initPreemptible :=
  ⟨by decide, rfl⟩

theorem witness_OnlyResetClearsTheFaultMark :
    (∃ t, step (facing .tick { stateE with fault := some .initPreemptible }) = .next t ∧ t.fault = some .initPreemptible)
    ∧ ∃ t, step (facing (.rst none false) { stateE with fault := some .initPreemptible }) = .next t ∧ t.fault = none :=
  ⟨⟨_, rfl, rfl⟩, _, rfl, rfl⟩

theorem witness_UnfaultedStateNeverStops : (presenting 0x06000000 stateE).fault = none := rfl

theorem witness_TickMovesRunningCountersOnePosition :
    nextMove State.reset = .tick
    ∧ ¬(State.reset.unitA.run = true ∧ State.reset.unitA.mode = .phaseCorrect)
    ∧ ((CounterUnit.configured 65534).run = true ∧ (CounterUnit.configured 65534).mode = .phaseCorrect
        ∧ (CounterUnit.configured 65534).dir = .up)
    ∧ ((CounterUnit.configured 131069).cnt, (CounterUnit.configured 131069).dir) = tri 131069
    ∧ (CounterUnit.configured 131069).dir = .down := by decide

theorem witness_CountersNeverWrap :
    RegistersConsistent blackEnabled ∧ Initialised blackEnabled ∧ (blackEnabled.counter .a).dir = .up :=
  ⟨blackEnabled_consistent, fun h => (by cases h), rfl⟩

theorem witness_OnlyTickInitAndResetTouchCounters :
    (∃ t, step (presenting 0x01000000 State.reset) = .next t ∧ t.unitA ≠ State.reset.unitA)
    ∧ (∃ t, step (facing .tick stateE) = .next t ∧ t.unitA ≠ stateE.unitA)
    ∧ ∃ t, step (facing (.rst none false) stateE) = .next t ∧ (stateE.counter .b).run = true ∧ (t.counter .b).run = false :=
  ⟨⟨_, rfl, by decide⟩, ⟨_, rfl, by decide⟩, _, rfl, rfl, rfl⟩

theorem witness_RegistersHaveTheStatedWriters :
    (∃ t, step (presenting 0x02000000 stateD) = .next t ∧ (t.channel .red).com ≠ (stateD.channel .red).com
        ∧ t.savedIe ≠ stateD.savedIe)
    ∧ (∃ t, step (presenting 0x01000000 State.reset) = .next t ∧ (t.channel .red).oe ≠ (State.reset.channel .red).oe
        ∧ (t.channel .red).latch ≠ (State.reset.channel .red).latch)
    ∧ (∃ t, step (presenting 0x04010203 stateD) = .next t ∧ t.color ≠ stateD.color)
    ∧ ∃ t, step (presenting 0x048000FF blackEnabled) = .next t ∧ (t.channel .red).cmp ≠ (blackEnabled.channel .red).cmp :=
  ⟨⟨_, rfl, by decide, by decide⟩, ⟨_, rfl, by decide, by decide⟩, ⟨_, rfl, by decide⟩, _, rfl,
    fun h => absurd ((show lookup 128 = 2048 from lookup_middle).symm.trans h) (by decide)⟩

theorem witness_ComparatorPositionForm : (0 : Nat) < 131070 ∧ 131069 < 131070 ∧ (tri 131069).1 = 1 := by decide

theorem witness_DutyIsExactlyTheCompareValue :
    (0 : Count) = 0 ∧ (65535 : Count).toNat = 65535 ∧ 1 ≤ (1 : Count).toNat ∧ (65534 : Count).toNat ≤ 65534 := by decide

theorem witness_PinDriverFollowsEnableConnectLatch :
    Initialised stateE ∧ (stateE.channel .red).oe = true ∧ (stateE.channel .red).com = true
    ∧ Initialised stateD ∧ (stateD.channel .red).oe = true ∧ (stateD.channel .red).com = false :=
  ⟨fun h => (by cases h), rfl, rfl, fun h => (by cases h), rfl, rfl⟩

theorem witness_PinDriverFollowsEnableConnectLatch_off :
    ∃ s : State, Initialised s ∧ (s.channel .red).oe = false :=
  ⟨{ State.reset with life := .disabled }, fun h => (by cases h), rfl⟩

theorem witness_PinsByLifecycleState :
    (∃ s : State, RegistersConsistent s ∧ s.life = .uninitialized)
    ∧ (RegistersConsistent blackDisabled ∧ blackDisabled.life = .disabled)
    ∧ (RegistersConsistent blackEnabled ∧ blackEnabled.life = .enabled) :=
  ⟨⟨State.reset, ⟨fun _ => ⟨rfl, rfl, rfl⟩, fun h => absurd rfl h, fun h => absurd rfl h, fun h => absurd rfl h,
      fun h => (by cases h), fun h => (by cases h), fun h => absurd rfl h, fun h => absurd rfl h⟩, rfl⟩,
    ⟨blackDisabled_consistent, rfl⟩, blackEnabled_consistent, rfl⟩

/-- An enabled state with the colour `(128, 255, 0)`: red low and inside green. -/
def redInGreen : State :=
  { blackEnabled with
    red := channelWith (lookup 128) true, green := channelWith (lookup 255) true, color := packColor 128 255 0 }

theorem witness_RedWindowLiesInsideGreen :
    RegistersConsistent redInGreen ∧ redInGreen.life = .enabled ∧ redInGreen.red.cmp ≤ redInGreen.green.cmp
    ∧ pinLevel redInGreen .red = .low := by
  have hb := blackEnabled_consistent
  refine ⟨⟨fun h => (by cases h), hb.running, fun _ c => by cases c <;> exact ⟨rfl, rfl⟩, fun _ c => ?_, fun h => (by cases h),
    fun _ c => by cases c <;> rfl, hb.phase, hb.turns⟩, rfl, ?_, ?_⟩
  · cases c
    · exact congrArg lookup (colorField_red_packColor 128 255 0).symm
    · exact congrArg lookup (colorField_green_packColor 128 255 0).symm
    · exact (show lookup 0 = 0 from lookup_zero).symm.trans (congrArg lookup (colorField_blue_packColor 128 255 0).symm)
  · change lookup 128 ≤ lookup 255
    rw [show lookup 128 = 2048 from lookup_middle, show lookup 255 = 65535 from lookup_last]; decide
  · change driverLevel ⟨lookup 128, true, true, true⟩ (activeAt 0 .up (lookup 128)) = .low
    rw [show lookup 128 = 2048 from lookup_middle]; decide

/-- The state of `44_pwm_datapath.md` R182 at a position. -/
def waveformAt (p : Nat) : State :=
  { stateE with
    red := channelWith 2048 true, green := channelWith 0 true, blue := channelWith 65535 true
    unitA := .configured p, unitB := .configured p }

theorem witness_WorkedWaveformHolds (p : Nat) :
    (waveformAt p).life = .enabled ∧ (∀ c, ((waveformAt p).channel c).oe = true ∧ ((waveformAt p).channel c).com = true)
    ∧ (waveformAt p).red.cmp = 2048 ∧ (waveformAt p).green.cmp = 0 ∧ (waveformAt p).blue.cmp = 65535
    ∧ ((waveformAt p).unitA.cnt, (waveformAt p).unitA.dir) = tri p
    ∧ ((waveformAt p).unitB.cnt, (waveformAt p).unitB.dir) = tri p :=
  ⟨rfl, fun c => by cases c <;> exact ⟨rfl, rfl⟩, rfl, rfl, rfl, rfl, rfl⟩

theorem witness_GammaTableHasTheStatedProperties : (254 : Intensity) ≠ 255 ∧ (0 : Intensity) ≠ 255 := by decide

theorem witness_GammaTableIsMonotoneAndBounded : (127 : Intensity) ≤ 128 ∧ (128 : Intensity) ≤ 128 ∧ (128 : Intensity) ≤ 129 := by
  decide

theorem witness_ChannelsHaveTheStatedComparePorts : Channel.green.comparePort = Channel.green.comparePort := rfl

theorem witness_EveryStepKeepsConsistency :
    Consistent blackEnabled ∧ ∃ t, step blackEnabled = .next t ∧ t.fault = none :=
  ⟨fun _ => blackEnabled_consistent, _, rfl, rfl⟩

end Sys2Proof.Tests
end

section
/-! PROOFS. The check of a configuration (`00_scope.md` R6, R7; `70_reset_and_hazards.md` R227): what each of its parts says, and
that a list of entries passes it exactly when a gamma table holds these entries. -/

namespace Sys2Proof

/-- The check of `40_gamma_lut.md` R103 as the library's chain. -/
theorem nonDecreasing_iff_isChain : ∀ l : List Nat, nonDecreasing l = true ↔ l.IsChain (· ≤ ·)
  | [] => by simp [nonDecreasing]
  | [_] => by simp [nonDecreasing]
  | a :: b :: l => by simp [nonDecreasing, nonDecreasing_iff_isChain (b :: l)]

/-- What the check of a configuration asks of its table: 256 entries, and `40_gamma_lut.md` R101 to R104 as the check
reads them. -/
structure PassesTableCheck (l : List Nat) : Prop where
  length : l.length = 256
  first : l[0]? = some 0
  middle : l[128]? = some 2048
  last : l[255]? = some 65535
  rising : nonDecreasing l = true

theorem ConfigCandidate.wf_iff (c : ConfigCandidate) :
    c.wf = true ↔ c.timerWidth = 16 ∧ c.phaseB0 < 131070 ∧ PassesTableCheck c.table := by
  simp only [ConfigCandidate.wf, Bool.and_eq_true, beq_iff_eq, decide_eq_true_eq]
  constructor
  · rintro ⟨⟨⟨⟨⟨⟨width, length⟩, first⟩, middle⟩, last⟩, rising⟩, phase⟩
    exact ⟨width, phase, length, first, middle, last, rising⟩
  · rintro ⟨width, phase, length, first, middle, last, rising⟩
    exact ⟨⟨⟨⟨⟨⟨width, length⟩, first⟩, middle⟩, last⟩, rising⟩, phase⟩

/-! ### Lists that hold the entries of a table -/

/-- The list holds, index by index, the values of `f`. -/
def HoldsEntries (l : List Nat) (f : Intensity → Count) : Prop :=
  ∀ i : Intensity, l[i.toNat]? = some (f i).toNat

namespace HoldsEntries

variable {l : List Nat} {f : Intensity → Count}

theorem getElem?_of_eq (h : HoldsEntries l f) {i : Intensity} {v : Count} (hv : f i = v) : l[i.toNat]? = some v.toNat :=
  hv ▸ h i

theorem getElem_eq (h : HoldsEntries l f) {i : Nat} (hi : i < l.length) (h256 : i < 256) :
    l[i] = (f (BitVec.ofNat 8 i)).toNat := by
  have hf := h (BitVec.ofNat 8 i)
  rw [BitVec.toNat_ofNat, Nat.mod_eq_of_lt h256, List.getElem?_eq_getElem hi] at hf
  exact Option.some.inj hf

/-- The check of R103 on the list says what R103 says of the table, for both go from neighbour to neighbour. -/
theorem nonDecreasing_iff (h : HoldsEntries l f) (hl : l.length = 256) :
    nonDecreasing l = true ↔ ∀ i : Nat, i < 255 → f (BitVec.ofNat 8 i) ≤ f (BitVec.ofNat 8 (i + 1)) := by
  have neighbours {i : Nat} (hi : i + 1 < l.length) :
      l[i] ≤ l[i + 1] ↔ f (BitVec.ofNat 8 i) ≤ f (BitVec.ofNat 8 (i + 1)) := by
    rw [h.getElem_eq _ (by omega), h.getElem_eq _ (by omega), BitVec.le_def]
  rw [nonDecreasing_iff_isChain, List.isChain_iff_getElem]
  exact ⟨fun chain i hi => (neighbours (by omega)).mp (chain i (by omega)),
    fun rising i hi => (neighbours hi).mpr (rising i (by omega))⟩

/-- The entries of a gamma table pass the check. -/
theorem passesTableCheck {g : Config.GammaTable} (h : HoldsEntries l g.entry) (hl : l.length = 256) :
    PassesTableCheck l where
  length := hl
  first := h.getElem?_of_eq g.first
  middle := h.getElem?_of_eq g.middle
  last := h.getElem?_of_eq g.last
  rising := (h.nonDecreasing_iff hl).mpr g.rising

end HoldsEntries

/-! ### The gamma table of a list that passes the check -/

/-- The entries of a list as 16-bit counts. -/
def listEntry (l : List Nat) (i : Intensity) : Count := BitVec.ofNat 16 (l[i.toNat]?.getD 0)

theorem listEntry_of_getElem? {l : List Nat} {i : Intensity} {v : Nat} (h : l[i.toNat]? = some v) :
    listEntry l i = BitVec.ofNat 16 v := by rw [listEntry, h, Option.getD_some]

namespace PassesTableCheck

variable {l : List Nat}

/-- The entries do not fall and the last is `TOP`, so each fits 16 bits. -/
theorem getElem_le_top (h : PassesTableCheck l) {i : Nat} (hi : i < l.length) : l[i] ≤ 65535 := by
  have sorted : l.SortedLE := ((nonDecreasing_iff_isChain l).mp h.rising).sortedLE
  have hlen : l.length = 256 := h.length
  obtain ⟨_, last⟩ : ∃ h255, l[255]'h255 = 65535 := List.getElem?_eq_some_iff.mp h.last
  calc l[i] ≤ l[255] := sorted.getElem_le_getElem_of_le (by omega)
    _ = 65535 := last

/-- No entry is cut off by the 16 bits of a count. -/
theorem holdsEntries_listEntry (h : PassesTableCheck l) : HoldsEntries l (listEntry l) := by
  intro i
  have hi : i.toNat < l.length := h.length ▸ i.isLt
  have hle : l[i.toNat] ≤ 65535 := h.getElem_le_top hi
  have entry : l[i.toNat]? = some l[i.toNat] := List.getElem?_eq_getElem hi
  rw [listEntry_of_getElem? entry, BitVec.toNat_ofNat, Nat.mod_eq_of_lt (by omega), entry]

/-- The gamma table whose entries a list that passes the check holds. -/
def toGammaTable (h : PassesTableCheck l) : Config.GammaTable where
  entry := listEntry l
  first := listEntry_of_getElem? h.first
  last := listEntry_of_getElem? h.last
  rising := (h.holdsEntries_listEntry.nonDecreasing_iff h.length).mp h.rising
  middle := listEntry_of_getElem? h.middle

end PassesTableCheck

/-- A list passes the check exactly when it has 256 entries and they are those of a gamma table. -/
theorem passesTableCheck_iff (l : List Nat) :
    PassesTableCheck l ↔ l.length = 256 ∧ ∃ g : Config.GammaTable, HoldsEntries l g.entry :=
  ⟨fun h => ⟨h.length, h.toGammaTable, h.holdsEntries_listEntry⟩, fun ⟨hl, _, hg⟩ => hg.passesTableCheck hl⟩

/-- Settles O6: the check part by part, and its part on the table by the gamma table built from the list. -/
theorem acceptedConfigurationHasTheFourProperties : Obligations.AcceptedConfigurationHasTheFourProperties := by
  unfold Obligations.AcceptedConfigurationHasTheFourProperties
  intro c
  rw [c.wf_iff, passesTableCheck_iff]
  rfl

end Sys2Proof
end

section
/-! PROOFS. The tick on the triangle (`44_pwm_datapath.md` R171, R172): a running counter moves from its position to the next. -/

namespace Sys2Proof.Machine

/-- One position further is the same from any position with the same place in the period. -/
theorem tri_mod_add_one (p : Nat) : tri (p % 131070 + 1) = tri (p + 1) := by
  rw [← tri_mod, Nat.mod_add_mod, tri_mod]

section
variable {u : CounterUnit} {p : Nat}

theorem tick_up (run : u.run = true) (mode : u.mode = .phaseCorrect) (dir : u.dir = .up) :
    u.tick = { u with cnt := u.cnt + 1, dir := if u.cnt + 1 = topCount then .down else .up } := by
  simp only [CounterUnit.tick, run, mode, dir, and_self, if_true]

theorem tick_down (run : u.run = true) (mode : u.mode = .phaseCorrect) (dir : u.dir = .down) :
    u.tick = { u with cnt := u.cnt - 1, dir := if u.cnt - 1 = 0 then .up else .down } := by
  simp only [CounterUnit.tick, run, mode, dir, and_self, if_true]

/-- The rising half: the count goes up by one, and at `TOP` the direction turns. -/
theorem tick_rising (run : u.run = true) (mode : u.mode = .phaseCorrect) (h : (u.cnt, u.dir) = tri p) (hp : p < 65535) :
    (u.tick.cnt, u.tick.dir) = tri (p + 1) := by
  rw [tri_of_lt_top hp] at h
  obtain ⟨cnt, dir⟩ := Prod.mk.inj h
  have next : u.cnt + 1 = BitVec.ofNat 16 (p + 1) := by rw [cnt, BitVec.ofNat_add]; rfl
  rw [tick_up run mode dir, next]
  obtain hlt | rfl : p < 65534 ∨ p = 65534 := by omega
  · have below : BitVec.ofNat 16 (p + 1) ≠ topCount := fun he => by
      have : (p + 1) % 65536 = 65535 := congrArg BitVec.toNat he
      omega
    rw [tri_of_lt_top (by omega), if_neg below]
  · rfl

/-- The falling half: the count goes down by one, and at 0 the direction turns and the period is over. -/
theorem tick_falling (run : u.run = true) (mode : u.mode = .phaseCorrect) (h : (u.cnt, u.dir) = tri p) (hp : 65535 ≤ p)
    (hp' : p < 131070) : (u.tick.cnt, u.tick.dir) = tri (p + 1) := by
  rw [tri_of_ge_top hp hp'] at h
  obtain ⟨cnt, dir⟩ := Prod.mk.inj h
  have next : u.cnt - 1 = BitVec.ofNat 16 (131070 - (p + 1)) := by
    rw [cnt, show 131070 - p = 131070 - (p + 1) + 1 by omega, BitVec.ofNat_add]
    exact BitVec.add_sub_cancel _ _
  rw [tick_down run mode dir, next]
  obtain hlt | rfl : p < 131069 ∨ p = 131069 := by omega
  · have above : BitVec.ofNat 16 (131070 - (p + 1)) ≠ 0 := fun he => by
      have : (131070 - (p + 1)) % 65536 = 0 := congrArg BitVec.toNat he
      omega
    rw [tri_of_ge_top (by omega) (by omega), if_neg above]
  · rfl

/-- A tick moves a running counter on by one position (`44_pwm_datapath.md` R172). -/
theorem tick_of_tri (run : u.run = true) (mode : u.mode = .phaseCorrect) (h : (u.cnt, u.dir) = tri p) :
    (u.tick.cnt, u.tick.dir) = tri (p + 1) := by
  rw [← tri_mod] at h
  rw [← tri_mod_add_one]
  have hp : p % 131070 < 131070 := Nat.mod_lt _ (by omega)
  by_cases rising : p % 131070 < 65535
  · exact tick_rising run mode h rising
  · exact tick_falling run mode h (by omega) hp

theorem position_of_tri (h : (u.cnt, u.dir) = tri p) : u.position = p % 131070 := by
  have cnt : u.cnt = (tri p).1 := congrArg Prod.fst h
  have dir : u.dir = (tri p).2 := congrArg Prod.snd h
  rw [CounterUnit.position, cnt, dir, positionOf_tri]

theorem turns_of_tri (h : (u.cnt, u.dir) = tri p) :
    (u.cnt = topCount → u.dir = .down) ∧ (u.cnt = 0 → u.dir = .up) := by
  have cnt : u.cnt = (tri p).1 := congrArg Prod.fst h
  have dir : u.dir = (tri p).2 := congrArg Prod.snd h
  rw [cnt, dir]
  exact tri_turns p

end

end Sys2Proof.Machine
end

section
/-! PROOFS. The channels and the counters, read through each operation of a step. -/

namespace Sys2Proof.Machine

variable (s : State) (c : Channel) (u : UnitId)

@[simp] theorem noResponse_channel : (noResponse s).channel c = s.channel c := rfl
@[simp] theorem noResponse_counter : (noResponse s).counter u = s.counter u := rfl
@[simp] theorem takeMove_counter : (takeMove s).counter u = s.counter u := rfl
@[simp] theorem tickStep_counter : (tickStep s).counter u = (s.counter u).tick := by cases u <;> rfl

@[simp] theorem initWrites_channel :
    (initWrites s).channel c = { cmp := 0, com := false, latch := true, oe := true } := by cases c <;> rfl
@[simp] theorem enableWrites_channel : (enableWrites s).channel c = { s.channel c with com := true } := by cases c <;> rfl
@[simp] theorem disableWrites_channel :
    (disableWrites s).channel c = { s.channel c with com := false, latch := true } := by cases c <;> rfl

/-- Each compare register is written from its own field of the new colour. -/
@[simp] theorem setcolorWrites_channel (r g b : Intensity) :
    (setcolorWrites r g b s).channel c
      = { s.channel c with cmp := lookup (colorField (packColor r g b) c) } := by
  cases c
  · rw [colorField_red_packColor]; rfl
  · rw [colorField_green_packColor]; rfl
  · rw [colorField_blue_packColor]; rfl

@[simp] theorem initWrites_unitA : (initWrites s).unitA = .configured 0 := rfl
@[simp] theorem initWrites_unitB : (initWrites s).unitB = .configured Config.phaseB0.val := rfl
@[simp] theorem initWrites_color : (initWrites s).color = s.color := rfl

/-- `INIT` leaves both units configured, each at some position. -/
theorem initWrites_counter : ∃ p, (initWrites s).counter u = .configured p := by
  cases u
  · exact ⟨0, rfl⟩
  · exact ⟨Config.phaseB0.val, rfl⟩

@[simp] theorem enableWrites_color : (enableWrites s).color = s.color := rfl

@[simp] theorem disableWrites_color : (disableWrites s).color = s.color := rfl

@[simp] theorem setcolorWrites_color (r g b : Intensity) : (setcolorWrites r g b s).color = packColor r g b := rfl

end Sys2Proof.Machine
end

section
/-! PROOFS. The register invariant (`10_state.md` R36): it holds at reset, and each move keeps it. -/

namespace Sys2Proof.Safety

open Sys2Proof.Machine

variable {s t : State}

/-- The invariant speaks of the channels, the counters, the colour and `LIFE` only. -/
theorem registersConsistent_of_same (h : RegistersConsistent s) (channel : t.channel = s.channel)
    (counter : t.counter = s.counter) (color : t.color = s.color) (life : t.life = s.life) : RegistersConsistent t := by
  have unitA : t.unitA = s.unitA := congrFun counter .a
  have unitB : t.unitB = s.unitB := congrFun counter .b
  obtain ⟨beforeInit, running, outputs, compares, disconnected, connected, phase, turns⟩ := h
  constructor <;> simpa only [Initialised, channel, counter, unitA, unitB, color, life]

/-- Before `INIT` only part (a) asks for something. -/
theorem registersConsistent_of_uninitialized (life : s.life = .uninitialized) (color : s.color = 0)
    (runA : s.unitA.run = false) (runB : s.unitB.run = false) : RegistersConsistent s where
  beforeInit _ := ⟨color, runA, runB⟩
  running h := absurd life h
  outputs h := absurd life h
  compares h := absurd life h
  disconnected h := by rw [life] at h; cases h
  connected h := by rw [life] at h; cases h
  phase h := absurd life h
  turns h := absurd life h

theorem registersConsistent_reset : RegistersConsistent State.reset :=
  registersConsistent_of_uninitialized rfl rfl rfl rfl

theorem registersConsistent_resetStep (s : State) : RegistersConsistent (resetStep s) :=
  registersConsistent_of_uninitialized rfl rfl rfl rfl

namespace RegistersConsistent

/-- In an initialised state each counter stands on the triangle, at its position. -/
theorem counter_eq_tri (h : RegistersConsistent s) (hi : Initialised s) (u : UnitId) :
    ((s.counter u).cnt, (s.counter u).dir) = tri (s.counter u).position :=
  (tri_position (h.turns hi u).1 (h.turns hi u).2).1

/-- In an initialised state a tick brings each counter to the next point of the triangle. -/
theorem tick_eq_tri (h : RegistersConsistent s) (hi : Initialised s) (u : UnitId) :
    ((s.counter u).tick.cnt, (s.counter u).tick.dir) = tri ((s.counter u).position + 1) :=
  tick_of_tri (h.running hi u).2 (h.running hi u).1 (h.counter_eq_tri hi u)

/-- Before `INIT` a tick moves neither counter. -/
theorem tick_eq_self (h : RegistersConsistent s) (life : s.life = .uninitialized) (u : UnitId) :
    (s.counter u).tick = s.counter u := by
  obtain ⟨-, runA, runB⟩ := h.beforeInit life
  have stopped : (s.counter u).run = false := by
    cases u
    · exact runA
    · exact runB
  exact tick_of_not_running fun ⟨run, _⟩ => by rw [stopped] at run; cases run

/-- The tick: before `INIT` nothing moves; afterwards both positions move on by one, and their distance stays. -/
theorem after_tickStep (h : RegistersConsistent s) : RegistersConsistent (tickStep s) := by
  by_cases life : s.life = .uninitialized
  · exact registersConsistent_of_same h rfl (funext fun u => by rw [tickStep_counter, h.tick_eq_self life]) rfl rfl
  · have positionA : s.unitA.tick.position = (s.unitA.position + 1) % 131070 := position_of_tri (h.tick_eq_tri life .a)
    have positionB : s.unitB.tick.position = (s.unitB.position + 1) % 131070 := position_of_tri (h.tick_eq_tri life .b)
    have phase : s.unitB.position = (s.unitA.position + Config.phaseB0.val) % 131070 := h.phase life
    exact
      { beforeInit := fun hu => absurd hu life
        running := fun _ u => by simpa using h.running life u
        outputs := h.outputs
        compares := h.compares
        disconnected := h.disconnected
        connected := h.connected
        phase := fun _ => by
          simp only [tickStep_unitA, tickStep_unitB, positionA, positionB, phase, Config.period]
          omega
        turns := fun _ u => by
          rw [tickStep_counter]
          exact turns_of_tri (h.tick_eq_tri life u) }

/-- `INIT`: the compare registers are zero, and so is the colour, which is still black. -/
theorem after_initWrites (h : RegistersConsistent s) (life : s.life = .uninitialized) : RegistersConsistent (initWrites s) where
  beforeInit hu := by cases hu
  running _ u := by
    obtain ⟨p, counter⟩ := initWrites_counter s u
    simp [counter]
  outputs _ c := by simp
  compares _ c := by
    obtain ⟨black, -, -⟩ := h.beforeInit life
    simp [black]
  disconnected _ c := by simp
  connected he := by cases he
  phase _ := by simp [Config.period]
  turns _ u := by
    obtain ⟨p, counter⟩ := initWrites_counter s u
    rw [counter]
    exact tri_turns p

/-- `ENABLE`: `LIFE` and the connect bits change together. -/
theorem after_enableWrites (h : RegistersConsistent s) (hi : Initialised s) : RegistersConsistent (enableWrites s) where
  beforeInit hu := by cases hu
  running _ := h.running hi
  outputs _ c := by simpa using h.outputs hi c
  compares _ c := by simpa using h.compares hi c
  disconnected hd := by cases hd
  connected _ c := by simp
  phase _ := h.phase hi
  turns _ := h.turns hi

/-- `DISABLE`: `LIFE` and the connect bits change together. -/
theorem after_disableWrites (h : RegistersConsistent s) (hi : Initialised s) : RegistersConsistent (disableWrites s) where
  beforeInit hu := by cases hu
  running _ := h.running hi
  outputs _ c := by simpa using (h.outputs hi c).1
  compares _ c := by simpa using h.compares hi c
  disconnected _ c := by simp
  connected he := by cases he
  phase _ := h.phase hi
  turns _ := h.turns hi

/-- `SETCOLOR`: the colour and the compare registers change together. -/
theorem after_setcolorWrites (h : RegistersConsistent s) (hi : Initialised s) (r g b : Intensity) :
    RegistersConsistent (setcolorWrites r g b s) where
  beforeInit hu := absurd hu hi
  running _ := h.running hi
  outputs _ c := by simpa using h.outputs hi c
  compares _ c := by simp
  disconnected hd c := by simpa using h.disconnected hd c
  connected he c := by simpa using h.connected he c
  phase _ := h.phase hi
  turns _ := h.turns hi

theorem after_noResponse (h : RegistersConsistent s) : RegistersConsistent (noResponse s) :=
  registersConsistent_of_same h rfl rfl rfl rfl

end RegistersConsistent

theorem consistent_takeMove (h : Consistent s) : Consistent (takeMove s) :=
  fun unfaulted => registersConsistent_of_same (h unfaulted) rfl rfl rfl rfl

end Sys2Proof.Safety

namespace Sys2Proof.Machine

open Sys2Proof.Safety

variable {s t : State}

/-- A command that leaves no mark keeps the invariant. -/
theorem CommandEffect.registersConsistent {i : Instr} (he : CommandEffect i s t) (h : RegistersConsistent s)
    (unmarked : t.fault = none) : RegistersConsistent t := by
  cases he with
  | misuse | preemptible => cases unmarked
  | init life => exact (h.after_initWrites life).after_noResponse
  | enable life => exact (h.after_enableWrites life).after_noResponse
  | disable life => exact (h.after_disableWrites life).after_noResponse
  | setcolor life => exact (h.after_setcolorWrites life _ _ _).after_noResponse
  | getcolor => exact registersConsistent_of_same h rfl rfl rfl rfl

/-- Every move keeps the invariant, of which nothing is asked in a faulted state. -/
theorem StepEffect.consistent {m : Move} (he : StepEffect m s t) (h : Consistent s) : Consistent t := by
  intro unmarked
  cases he with
  | command _ unfaulted effect => exact effect.registersConsistent (h unfaulted) unmarked
  | reserved => cases unmarked
  | tick => exact (h unmarked).after_tickStep
  | hostSetsIe => exact registersConsistent_of_same (h unmarked) rfl rfl rfl rfl
  | rst => exact registersConsistent_resetStep s

/-- Settles O53: each kind of step keeps the invariant. -/
theorem everyStepKeepsConsistency : Obligations.EveryStepKeepsConsistency := by
  unfold Obligations.EveryStepKeepsConsistency
  intro s t h hstep
  exact (step_next hstep).consistent (consistent_takeMove h)

/-- Settles O52: before `INIT` only part (a) asks for something, and reset has it. -/
theorem resetStateIsConsistent : Obligations.ResetStateIsConsistent := ⟨rfl, registersConsistent_reset⟩

end Sys2Proof.Machine
end

section
/-! PROOFS. Who writes each register (`10_state.md` R24, R29 to R33, R37): for every register, what a command and what a step can
do to it. -/

namespace Sys2Proof.Machine

open Sys2Proof.Safety

variable {i : Instr} {m : Move} {s t : State}

/-! ### Commands -/

theorem life_eq_disabled {life : Life} (initialised : life ≠ .uninitialized) (h : life ≠ .enabled) : life = .disabled := by
  cases life with
  | uninitialized => exact absurd rfl initialised
  | disabled => rfl
  | enabled => exact absurd rfl h

theorem life_eq_enabled {life : Life} (initialised : life ≠ .uninitialized) (h : life ≠ .disabled) : life = .enabled := by
  cases life with
  | uninitialized => exact absurd rfl initialised
  | disabled => exact absurd rfl h
  | enabled => rfl

namespace CommandEffect

theorem life_ne (he : CommandEffect i s t) (h : t.life ≠ s.life) :
    (i = .init ∧ s.life = .uninitialized ∧ t.life = .disabled)
    ∨ (i = .enable ∧ s.life = .disabled ∧ t.life = .enabled)
    ∨ (i = .disable ∧ s.life = .enabled ∧ t.life = .disabled) := by
  cases he with
  | init life => exact .inl ⟨rfl, life, rfl⟩
  | enable life => exact .inr (.inl ⟨rfl, life_eq_disabled life h.symm, rfl⟩)
  | disable life => exact .inr (.inr ⟨rfl, life_eq_enabled life h.symm, rfl⟩)
  | misuse | preemptible | setcolor | getcolor => exact absurd rfl h

theorem ie_eq (he : CommandEffect i s t) : t.ie = s.ie := by
  cases he <;> rfl

theorem script_eq (he : CommandEffect i s t) : t.host.script = s.host.script := by
  cases he <;> rfl

theorem index_eq (he : CommandEffect i s t) : t.host.index = s.host.index := by
  cases he <;> rfl

/-- Only an `INIT` that runs touches the counters, and it leaves them running. -/
theorem counter_eq_or (he : CommandEffect i s t) :
    t.counter = s.counter ∨ (i = .init ∧ s.life = .uninitialized ∧ ∀ u, (t.counter u).run = true) := by
  cases he with
  | init life =>
    refine .inr ⟨rfl, life, fun u => ?_⟩
    obtain ⟨p, counter⟩ := initWrites_counter s u
    rw [noResponse_counter, counter, configured_run]
  | misuse | preemptible | enable | disable | setcolor | getcolor => exact .inl rfl

theorem color_ne (he : CommandEffect i s t) (h : t.color ≠ s.color) : ∃ r g b, i = .setcolor r g b := by
  cases he with
  | setcolor => exact ⟨_, _, _, rfl⟩
  | misuse | preemptible | init | enable | disable | getcolor => exact absurd rfl h

theorem cmp_ne (he : CommandEffect i s t) {c : Channel} (h : (t.channel c).cmp ≠ (s.channel c).cmp) :
    i.name = .setcolor ∨ i.name = .init := by
  cases he with
  | init => exact .inr rfl
  | setcolor => exact .inl rfl
  | enable | disable => exact absurd (by simp) h
  | misuse | preemptible | getcolor => exact absurd rfl h

theorem com_ne (he : CommandEffect i s t) {c : Channel} (h : (t.channel c).com ≠ (s.channel c).com) :
    i.name = .init ∨ i.name = .enable ∨ i.name = .disable := by
  cases he with
  | init => exact .inl rfl
  | enable => exact .inr (.inl rfl)
  | disable => exact .inr (.inr rfl)
  | setcolor => exact absurd (by simp) h
  | misuse | preemptible | getcolor => exact absurd rfl h

theorem latch_ne (he : CommandEffect i s t) {c : Channel} (h : (t.channel c).latch ≠ (s.channel c).latch) :
    (i.name = .init ∨ i.name = .disable) ∧ (t.channel c).latch = true := by
  cases he with
  | init => exact ⟨.inl rfl, by simp⟩
  | disable => exact ⟨.inr rfl, by simp⟩
  | enable | setcolor => exact absurd (by simp) h
  | misuse | preemptible | getcolor => exact absurd rfl h

theorem oe_ne (he : CommandEffect i s t) {c : Channel} (h : (t.channel c).oe ≠ (s.channel c).oe) :
    i = .init ∧ (t.channel c).oe = true := by
  cases he with
  | init => exact ⟨rfl, by simp⟩
  | enable | disable | setcolor => exact absurd (by simp) h
  | misuse | preemptible | getcolor => exact absurd rfl h

theorem savedIe_ne (he : CommandEffect i s t) (h : t.savedIe ≠ s.savedIe) :
    (i.name = .enable ∨ i.name = .disable ∨ i.name = .setcolor) ∧ t.savedIe = s.ie := by
  cases he with
  | enable => exact ⟨.inl rfl, rfl⟩
  | disable => exact ⟨.inr (.inl rfl), rfl⟩
  | setcolor => exact ⟨.inr (.inr rfl), rfl⟩
  | misuse | preemptible | init | getcolor => exact absurd rfl h

end CommandEffect

/-! ### Steps -/

namespace StepEffect

/-- The channels, the colour, `LIFE` and `SAVED_IE` are written by commands that run and by reset only: no mark, no tick and no
change of `IE` writes them. -/
theorem same_or_command_or_rst (he : StepEffect m s t) :
    (t.channel = s.channel ∧ t.color = s.color ∧ t.life = s.life ∧ t.savedIe = s.savedIe)
    ∨ (∃ w i, m = .command w ∧ decode w = .ok i ∧ CommandEffect i s t)
    ∨ (∃ lost lostTick, m = .rst lost lostTick ∧ t = resetStep s) := by
  cases he with
  | command decoded _ effect => exact .inr (.inl ⟨_, _, rfl, decoded, effect⟩)
  | reserved | tick | hostSetsIe => exact .inl ⟨rfl, rfl, rfl, rfl⟩
  | rst => exact .inr (.inr ⟨_, _, rfl, rfl⟩)

theorem script_eq (he : StepEffect m s t) : t.host.script = s.host.script := by
  cases he with
  | command _ _ effect => exact effect.script_eq
  | reserved | tick | hostSetsIe | rst => rfl

theorem index_eq (he : StepEffect m s t) : t.host.index = s.host.index := by
  cases he with
  | command _ _ effect => exact effect.index_eq
  | reserved | tick | hostSetsIe | rst => rfl

theorem ie_ne (he : StepEffect m s t) (h : t.ie ≠ s.ie) : ∃ ie, m = .hostSetsIe ie ∧ t.ie = ie := by
  cases he with
  | command _ _ effect => exact absurd effect.ie_eq h
  | hostSetsIe => exact ⟨_, rfl, rfl⟩
  | reserved | tick | rst => exact absurd rfl h

/-- In a faulted state only the tick, the host's change of `IE` and reset happen, and only reset writes `FAULT`. -/
theorem fault_of_faulted (he : StepEffect m s t) {mark : FaultMark} (h : s.fault = some mark) :
    (t.fault = some mark ∧ ∀ lost lostTick, m ≠ .rst lost lostTick)
    ∨ (t.fault = none ∧ ∃ lost lostTick, m = .rst lost lostTick) := by
  cases he with
  | command _ unfaulted | reserved _ unfaulted => rw [unfaulted] at h; cases h
  | tick | hostSetsIe => exact .inl ⟨h, fun _ _ hm => by cases hm⟩
  | rst => exact .inr ⟨rfl, _, _, rfl⟩

/-- What a step can do to the counters. -/
theorem counter_eq_or (he : StepEffect m s t) :
    t.counter = s.counter
    ∨ (m = .tick ∧ ∀ u, t.counter u = (s.counter u).tick)
    ∨ (∃ w, m = .command w ∧ decode w = .ok .init ∧ s.life = .uninitialized ∧ ∀ u, (t.counter u).run = true)
    ∨ ∃ lost lostTick, m = .rst lost lostTick := by
  cases he with
  | command decoded _ effect =>
    obtain same | ⟨rfl, life, run⟩ := effect.counter_eq_or
    · exact .inl same
    · exact .inr (.inr (.inl ⟨_, rfl, decoded, life, run⟩))
  | reserved | hostSetsIe => exact .inl rfl
  | tick => exact .inr (.inl ⟨rfl, tickStep_counter s⟩)
  | rst => exact .inr (.inr (.inr ⟨_, _, rfl⟩))

end StepEffect

/-- Settles O21: a step that changes `LIFE` is a command that runs or a reset. -/
theorem lifecycleChangesOnlyAsDrawn : Obligations.LifecycleChangesOnlyAsDrawn := by
  unfold Obligations.LifecycleChangesOnlyAsDrawn
  intro s t hstep h
  obtain ⟨-, -, same, -⟩ | ⟨w, i, hm, decoded, effect⟩ | ⟨lost, lostTick, hm, rfl⟩ :=
    (step_next hstep).same_or_command_or_rst
  · exact absurd same h
  · obtain ⟨rfl, life⟩ | ⟨rfl, life⟩ | ⟨rfl, life⟩ := effect.life_ne h
    · exact .inl ⟨w, hm, decoded, life⟩
    · exact .inr (.inl ⟨w, hm, decoded, life⟩)
    · exact .inr (.inr (.inl ⟨w, hm, decoded, life⟩))
  · exact .inr (.inr (.inr ⟨lost, lostTick, hm, rfl⟩))

/-- Settles O32: the host's move by its definition, every other move by what it leaves. -/
theorem onlyTheHostChangesInterruptEnable : Obligations.OnlyTheHostChangesInterruptEnable := by
  unfold Obligations.OnlyTheHostChangesInterruptEnable
  refine ⟨fun s ie hm => ?_, fun s t hstep h => (step_next hstep).ie_ne h⟩
  rw [step, hm]
  rfl

/-- Settles O36: in a faulted state no command answers, and only reset writes the mark. -/
theorem onlyResetClearsTheFaultMark : Obligations.OnlyResetClearsTheFaultMark := by
  unfold Obligations.OnlyResetClearsTheFaultMark
  exact ⟨rfl, fun _ _ _ hstep h => (step_next hstep).fault_of_faulted h⟩

/-- Settles O12: no move touches the list or the index, so both are as taking the move left them. -/
theorem hostIndexStaysInTheList : Obligations.HostIndexStaysInTheList := by
  unfold Obligations.HostIndexStaysInTheList
  refine ⟨Nat.le_refl 0, fun s t inRange hstep => ?_⟩
  have script : t.host.script = s.host.script := (step_next hstep).script_eq
  have index : t.host.index = if s.host.index < s.host.script.length then s.host.index + 1 else s.host.index :=
    (step_next hstep).index_eq.trans (advance_index s.host)
  refine ⟨?_, script, index⟩
  unfold HostInRange at *
  rw [script, index]
  split <;> omega

/-- Settles O42: what a step can do to the counters, and neither the tick nor `INIT` clears a run bit. -/
theorem onlyTickInitAndResetTouchCounters : Obligations.OnlyTickInitAndResetTouchCounters := by
  unfold Obligations.OnlyTickInitAndResetTouchCounters
  intro s t hstep
  obtain same | ⟨hm, ticked⟩ | ⟨w, hm, decoded, life, run⟩ | reset := (step_next hstep).counter_eq_or
  · have unchanged (u : UnitId) : t.counter u = s.counter u := congrFun same u
    refine ⟨fun changed => ?_, fun u running stopped => ?_⟩
    · exact absurd ⟨unchanged .a, unchanged .b⟩ (not_and_or.mpr changed)
    · rw [unchanged, running] at stopped; cases stopped
  · refine ⟨fun _ => .inl hm, fun u running stopped => ?_⟩
    rw [ticked, tick_run, takeMove_counter, running] at stopped; cases stopped
  · refine ⟨fun _ => .inr (.inl ⟨w, hm, decoded, life⟩), fun u _ stopped => ?_⟩
    rw [run] at stopped; cases stopped
  · exact ⟨fun _ => .inr (.inr reset), fun _ _ _ => reset⟩

/-- Settles O43: a step other than reset that changes one of the six registers is a decoded command, and each command's writes
say which registers it changes. -/
theorem registersHaveTheStatedWriters : Obligations.RegistersHaveTheStatedWriters := by
  unfold Obligations.RegistersHaveTheStatedWriters
  intro s t c hstep noReset
  obtain ⟨channel, color, -, savedIe⟩ | ⟨w, i, hm, decoded, effect⟩ | ⟨lost, lostTick, hm, -⟩ :=
    (step_next hstep).same_or_command_or_rst
  · have same : t.channel c = s.channel c := congrFun channel c
    rw [same]
    exact ⟨fun h => absurd color h, fun h => absurd rfl h, fun h => absurd rfl h, fun h => absurd rfl h,
      fun h => absurd rfl h, fun h => absurd savedIe h⟩
  · refine ⟨fun h => ?_, fun h => ⟨w, i, hm, decoded, effect.cmp_ne h⟩, fun h => ⟨w, i, hm, decoded, effect.com_ne h⟩,
      fun h => ⟨w, i, hm, decoded, effect.latch_ne h⟩, fun h => ?_, fun h => ⟨w, i, hm, decoded, effect.savedIe_ne h⟩⟩
    · obtain ⟨r, g, b, rfl⟩ := effect.color_ne h
      exact ⟨w, r, g, b, hm, decoded⟩
    · obtain ⟨rfl, oe⟩ := effect.oe_ne h
      exact ⟨w, hm, decoded, oe⟩
  · exact absurd hm (noReset lost lostTick)

end Sys2Proof.Machine
end

section
/-! PROOFS. The placing of a command word (`10_state.md` R44, notes/assumptions/2.md), the reset values (R40) and the compare
ports (R22, R35). -/

namespace Sys2Proof.Machine

theorem decode_of_decodeTableWord {nbits w : Nat} {i : Instr} (h : decodeTableWord nbits w = some i) :
    decode (tableWord nbits w) = .ok i := by
  unfold decodeTableWord at h
  split at h
  · next decoded => rw [decoded, Option.some.inj h]
  · cases h

/-- The placed word is the next move. -/
theorem nextMove_withFetchWord (s : State) (nbits w : Nat) :
    nextMove (s.withFetchWord nbits w) = .command (tableWord nbits w) :=
  nextMove_of_getElem? (insertNext_getElem? s.host _)

/-- Once the placed move is taken, the moves to come are those that were to come before, past the end of the list too. -/
theorem drop_advance_insertNext (h : HostAgent) (m : Move) :
    (h.insertNext m).advance.script.drop (h.insertNext m).advance.index = h.script.drop h.index := by
  have script : (h.insertNext m).script = h.script.take h.index ++ m :: h.script.drop h.index := rfl
  have index : (h.insertNext m).index = (h.script.take h.index).length := List.length_take.symm
  have inside : (h.insertNext m).index < (h.insertNext m).script.length := by
    rw [index, script, List.length_append, List.length_cons]
    omega
  rw [advance_script, advance_index, if_pos inside, script, index, ← List.drop_drop, List.drop_left]
  rfl

/-- Settles O8: the placed word is the next move, and it decodes to `i`. -/
theorem placedWordRunsNext : Obligations.PlacedWordRunsNext := by
  unfold Obligations.PlacedWordRunsNext
  intro s nbits w i h
  refine ⟨?_, rfl, drop_advance_insertNext s.host _⟩
  rw [step, nextMove_withFetchWord]
  exact commandStep_of_ok (decode_of_decodeTableWord h) _

/-- Settles O11: the black colour is black in each field, and the other values are those of the reset state. -/
theorem resetHasTheStatedValues : Obligations.ResetHasTheStatedValues :=
  ⟨rfl, colorField_zero, rfl, rfl, rfl⟩

/-- Different channels have different compare ports (`10_state.md` R22, R35). -/
theorem comparePort_injective : Function.Injective Channel.comparePort := by
  intro c d
  cases c <;> cases d <;> decide

/-- Settles O54: the ports channel by channel. -/
theorem channelsHaveTheStatedComparePorts : Obligations.ChannelsHaveTheStatedComparePorts := by
  unfold Obligations.ChannelsHaveTheStatedComparePorts
  refine ⟨rfl, rfl, rfl, unit_red, unit_green, unit_blue, fun c => ?_, fun _ _ h => comparePort_injective h⟩
  cases c <;> decide

end Sys2Proof.Machine
end

section
/-! PROOFS. A command after a command (`20_memory.md` R68, R73): what each does where it is legal, and that the writes of a
later command cover those of an earlier one of its kind. -/

namespace Sys2Proof.Machine

open Sys2Proof.Safety

/-! ### The commands in an unfaulted initialised state -/

section
variable {s : State} (unfaulted : s.fault = none) (initialised : Initialised s)
include unfaulted initialised

theorem exec_enable_of_initialised : exec .enable s = .next (noResponse (enableWrites s)) :=
  beginCommand_of_legal unfaulted ((legalIn_other (by decide)).mpr initialised) _

theorem exec_disable_of_initialised : exec .disable s = .next (noResponse (disableWrites s)) :=
  beginCommand_of_legal unfaulted ((legalIn_other (by decide)).mpr initialised) _

theorem exec_setcolor_of_initialised (r g b : Intensity) :
    exec (.setcolor r g b) s = .next (noResponse (setcolorWrites r g b s)) :=
  beginCommand_of_legal unfaulted ((legalIn_other (by decide)).mpr initialised) _

theorem exec_getcolor_of_initialised : exec .getcolor s = .next (respond (responseWord s.color) s) :=
  beginCommand_of_legal unfaulted ((legalIn_other (by decide)).mpr initialised) _

theorem exec_init_of_initialised :
    exec .init s = .next { s with fault := some (.lifecycleMisuse .init s.life), resp := none } :=
  beginCommand_of_misuse unfaulted (Bool.eq_false_iff.mpr (mt legalIn_init.mp initialised)) _

end

/-! ### Later writes cover earlier ones -/

section
variable (s : State)

theorem noResponse_enableWrites_idem :
    noResponse (enableWrites (noResponse (enableWrites s))) = noResponse (enableWrites s) := by
  simp only [enableWrites_eq]; rfl

theorem noResponse_disableWrites_idem :
    noResponse (disableWrites (noResponse (disableWrites s))) = noResponse (disableWrites s) := by
  simp only [disableWrites_eq]; rfl

/-- Which registers `SETCOLOR` writes does not depend on its operands, and it saves the `IE` the earlier one restored. -/
theorem noResponse_setcolorWrites_covers (r g b r' g' b' : Intensity) :
    noResponse (setcolorWrites r' g' b' (noResponse (setcolorWrites r g b s))) = noResponse (setcolorWrites r' g' b' s) := by
  simp only [setcolorWrites_eq]; rfl

end

/-! ### Two commands in a row -/

section
variable {s : State} (unfaulted : s.fault = none) (initialised : Initialised s)
include unfaulted initialised

theorem exec_enable_twice : ∃ t, exec .enable s = .next t ∧ exec .enable t = .next t := by
  have unfaulted' : (noResponse (enableWrites s)).fault = none := unfaulted
  have initialised' : Initialised (noResponse (enableWrites s)) := fun h => by cases h
  refine ⟨_, exec_enable_of_initialised unfaulted initialised, ?_⟩
  rw [exec_enable_of_initialised unfaulted' initialised', noResponse_enableWrites_idem]

theorem exec_disable_twice : ∃ t, exec .disable s = .next t ∧ exec .disable t = .next t := by
  have unfaulted' : (noResponse (disableWrites s)).fault = none := unfaulted
  have initialised' : Initialised (noResponse (disableWrites s)) := fun h => by cases h
  refine ⟨_, exec_disable_of_initialised unfaulted initialised, ?_⟩
  rw [exec_disable_of_initialised unfaulted' initialised', noResponse_disableWrites_idem]

/-- `SETCOLOR` keeps `FAULT` and `LIFE`, so the later one runs as well, and its writes cover those of the earlier. -/
theorem exec_setcolor_after_setcolor (r g b r' g' b' : Intensity) :
    ∃ t, exec (.setcolor r g b) s = .next t ∧ exec (.setcolor r' g' b') t = exec (.setcolor r' g' b') s := by
  have unfaulted' : (noResponse (setcolorWrites r g b s)).fault = none := unfaulted
  have initialised' : Initialised (noResponse (setcolorWrites r g b s)) := initialised
  refine ⟨_, exec_setcolor_of_initialised unfaulted initialised r g b, ?_⟩
  rw [exec_setcolor_of_initialised unfaulted' initialised', exec_setcolor_of_initialised unfaulted initialised,
    noResponse_setcolorWrites_covers]

end

/-- Settles O26: after the earlier `SETCOLOR` the later one does what it does without it. -/
theorem laterSetcolorLeavesNoMixture : Obligations.LaterSetcolorLeavesNoMixture := by
  unfold Obligations.LaterSetcolorLeavesNoMixture
  intro r g b r' g' b' s unfaulted initialised
  obtain ⟨t, first, same⟩ := exec_setcolor_after_setcolor unfaulted initialised r g b r' g' b'
  have alone := exec_setcolor_of_initialised unfaulted initialised r' g' b'
  exact ⟨t, _, first, same.trans alone, alone⟩

/-- Settles O27: each command where it is legal, then once more; a repeated `SETCOLOR` is a later one with the same operands. -/
theorem repeatedCommandLeavesTheSameState : Obligations.RepeatedCommandLeavesTheSameState := by
  unfold Obligations.RepeatedCommandLeavesTheSameState
  intro s unfaulted initialised
  refine ⟨exec_enable_twice unfaulted initialised, exec_disable_twice unfaulted initialised, fun r g b => ?_,
    ⟨_, exec_getcolor_of_initialised unfaulted initialised, rfl⟩,
    ⟨_, exec_init_of_initialised unfaulted initialised, rfl⟩⟩
  obtain ⟨t, first, same⟩ := exec_setcolor_after_setcolor unfaulted initialised r g b r g b
  exact ⟨t, first, same.trans first⟩

end Sys2Proof.Machine
end

section
/-! PROOFS. Decoding and encoding (`30_encoding.md` R81 to R92): every word is the word of a command or reserved; the decoder reads
a command back from its word and rejects the reserved words; the rows of the opcode table are the words of the commands. -/

namespace Sys2Proof

variable {w : Word} {i : Instr}

/-! ### Words of commands and reserved words -/

/-- The three classes of `30_encoding.md` R85. -/
def IsReserved (w : Word) : Prop :=
  opField w = 0x00 ∨ 0x06 ≤ opField w
    ∨ ((opField w = 0x01 ∨ opField w = 0x02 ∨ opField w = 0x03 ∨ opField w = 0x05) ∧ operandBits w ≠ 0)

/-- An opcode is zero, one of the five commands' (`30_encoding.md` R82), or undefined. -/
theorem opcode_cases (op : BitVec 8) :
    op = 0x00 ∨ op = 0x01 ∨ op = 0x02 ∨ op = 0x03 ∨ op = 0x04 ∨ op = 0x05 ∨ 0x06 ≤ op := by
  bv_omega

/-- A word without operand bits is its opcode in format `C`. -/
theorem formatC_of_operandBits_eq_zero (h : operandBits w = 0) : formatC (opField w) 0 0 0 = w := by
  obtain ⟨red, green, blue⟩ := (operandBits_eq_zero w).mp h
  calc formatC (opField w) 0 0 0
      = formatC (opField w) (redField w) (greenField w) (blueField w) := by rw [red, green, blue]
    _ = w := formatC_fields w

/-- A word with the opcode of a command without operands is that command's, or an operand bit is set and it is reserved
(`30_encoding.md` R84). -/
theorem formatC_eq_or_isReserved {op : BitVec 8} (h : opField w = op)
    (noOperands : op = 0x01 ∨ op = 0x02 ∨ op = 0x03 ∨ op = 0x05) : formatC op 0 0 0 = w ∨ IsReserved w := by
  subst h
  by_cases zero : operandBits w = 0
  · exact .inl (formatC_of_operandBits_eq_zero zero)
  · exact .inr (.inr (.inr ⟨noOperands, zero⟩))

theorem exists_encode_eq_or_isReserved (w : Word) : (∃ i, encode i = w) ∨ IsReserved w := by
  obtain zero | init | enable | disable | setcolor | getcolor | undefined := opcode_cases (opField w)
  · exact .inr (.inl zero)
  · exact (formatC_eq_or_isReserved init (by decide)).imp_left fun word => ⟨.init, word⟩
  · exact (formatC_eq_or_isReserved enable (by decide)).imp_left fun word => ⟨.enable, word⟩
  · exact (formatC_eq_or_isReserved disable (by decide)).imp_left fun word => ⟨.disable, word⟩
  · have word : formatC 0x04 (redField w) (greenField w) (blueField w) = w := setcolor ▸ formatC_fields w
    exact .inl ⟨.setcolor (redField w) (greenField w) (blueField w), word⟩
  · exact (formatC_eq_or_isReserved getcolor (by decide)).imp_left fun word => ⟨.getcolor, word⟩
  · exact .inr (.inr (.inl undefined))

/-! ### The decoder -/

theorem decode_encode (i : Instr) : decode (encode i) = .ok i := by
  cases i with
  | init | enable | disable | getcolor => rfl
  | setcolor r g b => simp [decode, encode, CommandName.opcode]

/-- No branch of the decoder but the two that reject takes a reserved word. -/
theorem decode_of_isReserved (h : IsReserved w) : decode w = .error ⟨reservedClass w, w⟩ := by
  obtain zero | undefined | ⟨noOperands, set⟩ := h
  · simp [decode, zero]
  · have ne (op : BitVec 8) (defined : op < 0x06) : opField w ≠ op := by bv_omega
    simp [decode, ne]
  · have ne : opField w ≠ 0x04 := by bv_omega
    rw [decode, if_neg ne, if_pos set]

/-- The words that decode to a command are those that encode it. -/
theorem decode_eq_ok_iff : decode w = .ok i ↔ encode i = w := by
  refine ⟨fun h => ?_, fun h => h ▸ decode_encode i⟩
  obtain ⟨j, rfl⟩ | reserved := exists_encode_eq_or_isReserved w
  · rw [decode_encode] at h
    exact congrArg encode (Except.ok.inj h).symm
  · rw [decode_of_isReserved reserved] at h
    cases h

/-- The rejected words are the reserved ones, each rejected with itself and its class. -/
theorem decode_eq_error_iff {r : ReservedWord} :
    decode w = .error r ↔ IsReserved w ∧ r = ⟨reservedClass w, w⟩ := by
  refine ⟨fun h => ?_, fun ⟨reserved, hr⟩ => hr ▸ decode_of_isReserved reserved⟩
  obtain ⟨i, rfl⟩ | reserved := exists_encode_eq_or_isReserved w
  · rw [decode_encode] at h
    cases h
  · rw [decode_of_isReserved reserved] at h
    exact ⟨reserved, (Except.error.inj h).symm⟩

theorem exists_decode_eq_error_iff : (∃ r, decode w = .error r) ↔ IsReserved w := by
  simp only [decode_eq_error_iff, exists_and_left, exists_eq, and_true]

/-- Settles O2: the decoder reads a command back from its word, and no other word decodes to it. -/
theorem decodeAndEncodeAreInverse : Obligations.DecodeAndEncodeAreInverse :=
  ⟨decode_encode, fun _ _ => decode_eq_ok_iff.mp⟩

/-! ### The class of a reserved word -/

theorem reservedClass_eq_opcodeZero_iff : reservedClass w = .opcodeZero ↔ opField w = 0x00 := by
  unfold reservedClass
  split
  · next zero => exact iff_of_true rfl zero
  · next nonzero => split <;> exact iff_of_false nofun nonzero

theorem reservedClass_eq_opcodeUndefined_iff : reservedClass w = .opcodeUndefined ↔ 0x06 ≤ opField w := by
  unfold reservedClass
  split
  · next zero => exact iff_of_false nofun (by rw [zero]; decide)
  · split
    · next undefined => exact iff_of_true rfl undefined
    · next defined => exact iff_of_false nofun defined

/-- The third class is what the other two leave. -/
theorem reservedClass_eq_operandBitsSet_iff :
    reservedClass w = .operandBitsSet ↔ opField w ≠ 0x00 ∧ opField w < 0x06 := by
  rw [Ne, ← reservedClass_eq_opcodeZero_iff, ← BitVec.not_le, ← reservedClass_eq_opcodeUndefined_iff]
  cases reservedClass w <;> decide

/-- Settles O3: the rejected words are the reserved ones, and the class is read from the opcode. -/
theorem reservedWordsAreTheThreeClasses : Obligations.ReservedWordsAreTheThreeClasses := by
  unfold Obligations.ReservedWordsAreTheThreeClasses
  refine fun w => ⟨exists_decode_eq_error_iff, fun r rejected => ?_⟩
  obtain ⟨-, rfl⟩ := decode_eq_error_iff.mp rejected
  exact ⟨rfl, reservedClass_eq_opcodeZero_iff, reservedClass_eq_opcodeUndefined_iff, reservedClass_eq_operandBitsSet_iff⟩

/-! ### The opcode table -/

/-- The encoded word of a command selects a row with its name. -/
theorem encode_selectsRow (i : Instr) : ∃ a ∈ opcodeTable, a.selects (encode i) = true ∧ a.name = i.name := by
  cases i with
  | init => exact Laws.SelectsRow.init
  | enable => exact Laws.SelectsRow.enable
  | disable => exact Laws.SelectsRow.disable
  | setcolor r g b => exact Laws.SelectsRow.setcolor r g b
  | getcolor => exact Laws.SelectsRow.getcolor

/-- A row whose mask has all bits set is selected by its pattern only. -/
theorem eq_pattern_of_selects {a : OpcodeRow} (mask : a.mask = BitVec.allOnes 32) (h : a.selects w = true) :
    a.pattern = w := by
  rw [OpcodeRow.selects, mask, BitVec.and_allOnes, beq_iff_eq] at h
  exact h.symm

/-- A row whose mask is the opcode's is selected by the words with its pattern's opcode. -/
theorem opField_eq_of_selects {a : OpcodeRow} (mask : a.mask = 0xFF000000) (h : a.selects w = true) :
    opField w = opField a.pattern := by
  rw [OpcodeRow.selects, mask, beq_iff_eq] at h
  have fields : opField (w &&& 0xFF000000) = opField w &&& BitVec.allOnes 8 := BitVec.extractLsb'_and
  rw [← h, fields, BitVec.and_allOnes]

/-- A word that selects a row encodes a command with the row's name. -/
theorem exists_encode_eq_of_selects {a : OpcodeRow} (row : a ∈ opcodeTable) (h : a.selects w = true) :
    ∃ i, encode i = w ∧ i.name = a.name := by
  simp only [opcodeTable, List.mem_cons, List.not_mem_nil, or_false] at row
  obtain rfl | rfl | rfl | rfl | rfl := row
  · exact ⟨.init, eq_pattern_of_selects rfl h, rfl⟩
  · exact ⟨.enable, eq_pattern_of_selects rfl h, rfl⟩
  · exact ⟨.disable, eq_pattern_of_selects rfl h, rfl⟩
  · have op : opField w = 0x04 := opField_eq_of_selects rfl h
    have word : formatC 0x04 (redField w) (greenField w) (blueField w) = w := op ▸ formatC_fields w
    exact ⟨.setcolor (redField w) (greenField w) (blueField w), word, rfl⟩
  · exact ⟨.getcolor, eq_pattern_of_selects rfl h, rfl⟩

/-- A word that decodes to a command selects a row with its name. -/
theorem exists_selects_of_decode (h : decode w = .ok i) : ∃ a ∈ opcodeTable, a.selects w = true ∧ a.name = i.name :=
  decode_eq_ok_iff.mp h ▸ encode_selectsRow i

theorem encode_injective : Function.Injective encode := fun i j h => by
  have decoded : decode (encode i) = .ok j := decode_eq_ok_iff.mpr h.symm
  exact Except.ok.inj ((decode_encode i).symm.trans decoded)

theorem eq_of_row_name_eq : ∀ a ∈ opcodeTable, ∀ b ∈ opcodeTable, a.name = b.name → a = b := by
  decide

/-- Settles O4: the words of a row are those of the commands with its name, and no two rows have the same name. -/
theorem opcodeTableRowsDecideTheCommand : Obligations.OpcodeTableRowsDecideTheCommand := by
  unfold Obligations.OpcodeTableRowsDecideTheCommand
  refine ⟨rfl, fun w => ⟨fun a ha b hb selectsA selectsB => ?_, fun a ha selects => ?_,
    fun _ => exists_selects_of_decode, fun unselected => ?_⟩⟩
  · obtain ⟨i, rfl, nameA⟩ := exists_encode_eq_of_selects ha selectsA
    obtain ⟨j, same, nameB⟩ := exists_encode_eq_of_selects hb selectsB
    exact eq_of_row_name_eq a ha b hb (by rw [← nameA, ← nameB, encode_injective same])
  · obtain ⟨i, rfl, name⟩ := exists_encode_eq_of_selects ha selects
    exact ⟨i, decode_encode i, name⟩
  · cases decoded : decode w with
    | error r => exact ⟨r, rfl⟩
    | ok i =>
      obtain ⟨a, ha, selects, -⟩ := exists_selects_of_decode decoded
      rw [unselected a ha] at selects
      cases selects

end Sys2Proof
end

section
/-! PROOFS. The operands of a listing's command (`30_encoding.md` R89). -/

namespace Sys2Proof

theorem AsmCommand.wf_setcolor_iff {r g b : Nat} :
    (AsmCommand.setcolor r g b).wf = true ↔ r ≤ 255 ∧ g ≤ 255 ∧ b ≤ 255 := by
  simp only [AsmCommand.wf, operandInRange, Bool.and_eq_true, decide_eq_true_eq, and_assoc]

/-- `SETCOLOR` of a listing assembles when its three operands are in range. -/
theorem AsmCommand.assemble_setcolor (r g b : Nat) :
    (AsmCommand.setcolor r g b).assemble =
      if r ≤ 255 ∧ g ≤ 255 ∧ b ≤ 255 then
        some (.setcolor (BitVec.ofNat 8 r) (BitVec.ofNat 8 g) (BitVec.ofNat 8 b))
      else none := by
  simp only [AsmCommand.assemble, AsmCommand.wf_setcolor_iff]

/-- An operand in range loses no bit. -/
theorem toNat_ofNat_of_le {n : Nat} (h : n ≤ 255) : (BitVec.ofNat 8 n).toNat = n := by
  rw [BitVec.toNat_ofNat, Nat.mod_eq_of_lt (by omega)]

/-- Settles O5: a `SETCOLOR` assembles exactly with its three operands in range, and then they are its operands. -/
theorem listingOperandOutOfRangeIsError : Obligations.ListingOperandOutOfRangeIsError := by
  unfold Obligations.ListingOperandOutOfRangeIsError
  refine ⟨fun r g b => ?_, fun r g b hr hg hb => ?_, rfl, rfl, rfl, rfl⟩
  · rw [AsmCommand.assemble_setcolor]
    split
    · next inRange => simp only [reduceCtorEq, false_iff]; omega
    · next outOfRange => simp only [true_iff]; omega
  · rw [AsmCommand.assemble_setcolor, if_pos ⟨hr, hg, hb⟩]
    exact ⟨_, _, _, rfl, toNat_ofNat_of_le hr, toNat_ofNat_of_le hg, toNat_ofNat_of_le hb⟩

end Sys2Proof
end

section
/-! PROOFS. The worked encodings (`30_encoding.md` R91). -/

namespace Sys2Proof

open Sys2Proof.Machine

variable {w : Word} {i : Instr}

/-- To decode a worked word, encode its command. -/
theorem encode_and_decode (word : encode i = w) : encode i = w ∧ decode w = .ok i :=
  ⟨word, decode_eq_ok_iff.mpr word⟩

/-- Settles O1: each worked word by its encoding, the reserved words by their class, the response by what `GETCOLOR` answers. -/
theorem workedEncodingsDecode : Obligations.WorkedEncodingsDecode := by
  unfold Obligations.WorkedEncodingsDecode
  refine ⟨encode_and_decode rfl, encode_and_decode rfl, encode_and_decode rfl, encode_and_decode rfl, encode_and_decode rfl,
    encode_and_decode rfl, encode_and_decode rfl, encode_and_decode rfl, ?_, fun s unfaulted initialised color => ?_⟩
  · simp only [exists_decode_eq_error_iff, List.forall_mem_cons]
    have zero : IsReserved 0x00000000 := .inl rfl
    have initBit : IsReserved 0x01000001 := .inr (.inr ⟨.inl rfl, by decide⟩)
    have getcolorBits : IsReserved 0x05FFFFFF := .inr (.inr ⟨.inr (.inr (.inr rfl)), by decide⟩)
    have undefined : IsReserved 0x06000000 := .inr (.inl (by decide))
    have allOnes : IsReserved 0xFFFFFFFF := .inr (.inl (by decide))
    exact ⟨zero, initBit, getcolorBits, undefined, allOnes, nofun⟩
  · refine ⟨_, exec_getcolor_of_initialised unfaulted initialised, ?_⟩
    rw [respond_resp, color]
    decide

end Sys2Proof
end

section
/-! PROOFS. The response port (`30_encoding.md` R87): what a command and what a step can put on it, and the bytes of a response. -/

namespace Sys2Proof.Machine

variable {i : Instr} {m : Move} {s t : State}

/-- A response is the cached colour in format `C`, with a zero byte for the opcode. -/
theorem responseWord_eq_formatC (color : Rgb) :
    responseWord color = formatC 0 (colorField color .red) (colorField color .green) (colorField color .blue) := by
  calc responseWord color
      = responseWord (packColor (colorField color .red) (colorField color .green) (colorField color .blue)) := by
        rw [packColor_fields]
    _ = formatC 0 (colorField color .red) (colorField color .green) (colorField color .blue) := by
        simp only [responseWord, packColor, formatC, BitVec.append_assoc, BitVec.cast_eq]

@[simp] theorem opField_responseWord (color : Rgb) : opField (responseWord color) = 0 := by
  rw [responseWord_eq_formatC, opField_formatC]

@[simp] theorem redField_responseWord (color : Rgb) : redField (responseWord color) = colorField color .red := by
  rw [responseWord_eq_formatC, redField_formatC]

@[simp] theorem greenField_responseWord (color : Rgb) : greenField (responseWord color) = colorField color .green := by
  rw [responseWord_eq_formatC, greenField_formatC]

@[simp] theorem blueField_responseWord (color : Rgb) : blueField (responseWord color) = colorField color .blue := by
  rw [responseWord_eq_formatC, blueField_formatC]

/-- A command drives no response and leaves the record as it is, or it is a `GETCOLOR` that runs. -/
theorem CommandEffect.no_response_or_getcolor (he : CommandEffect i s t) :
    (t.resp = none ∧ t.host.responses = s.host.responses)
    ∨ (i = .getcolor ∧ t = respond (responseWord s.color) s) := by
  cases he with
  | getcolor => exact .inr ⟨rfl, rfl⟩
  | misuse | preemptible | init | enable | disable | setcolor => exact .inl ⟨rfl, rfl⟩

/-- A step drives no response and leaves the record as it is, or it is a `GETCOLOR` that runs. -/
theorem StepEffect.no_response_or_getcolor (he : StepEffect m s t) :
    (t.resp = none ∧ t.host.responses = s.host.responses)
    ∨ (∃ w, m = .command w ∧ decode w = .ok .getcolor ∧ s.fault = none ∧ t = respond (responseWord s.color) s) := by
  cases he with
  | command decoded unfaulted effect =>
    obtain silent | ⟨rfl, ran⟩ := effect.no_response_or_getcolor
    · exact .inl silent
    · exact .inr ⟨_, rfl, decoded, unfaulted, ran⟩
  | reserved | tick | hostSetsIe | rst => exact .inl ⟨rfl, rfl⟩

/-- A `GETCOLOR` that leaves no mark drives a response. -/
theorem StepEffect.respValid_of_getcolor {w : Word} (he : StepEffect (.command w) s t) (getcolor : decode w = .ok .getcolor)
    (unmarked : t.fault = none) : respValid t = true := by
  cases he with
  | command decoded _ effect =>
    obtain rfl : Instr.getcolor = _ := Except.ok.inj (getcolor.symm.trans decoded)
    cases effect with
    | misuse => cases unmarked
    | getcolor => rfl
  | reserved => cases unmarked

/-- Settles O24: a step that drives a response is a `GETCOLOR` that runs, and its word has the bytes of the cached colour. -/
theorem onlyGetcolorDrivesAResponse : Obligations.OnlyGetcolorDrivesAResponse := by
  unfold Obligations.OnlyGetcolorDrivesAResponse
  intro s t hstep
  have effect : StepEffect (nextMove s) (takeMove s) t := step_next hstep
  refine ⟨fun x response => ?_, fun silent => ?_, fun w hm getcolor unmarked => ?_⟩
  · obtain ⟨silent, -⟩ | ⟨w, hm, getcolor, unfaulted, rfl⟩ := effect.no_response_or_getcolor
    · rw [silent] at response; cases response
    · obtain rfl : responseWord s.color = x := Option.some.inj response
      exact ⟨⟨w, hm, getcolor⟩, unfaulted, opField_responseWord s.color, redField_responseWord s.color,
        greenField_responseWord s.color, blueField_responseWord s.color⟩
  · obtain ⟨-, record⟩ | ⟨w, -, -, -, rfl⟩ := effect.no_response_or_getcolor
    · exact record
    · cases silent
  · rw [hm] at effect
    exact effect.respValid_of_getcolor getcolor unmarked

end Sys2Proof.Machine
end

section
/-! PROOFS. The gamma table (`40_gamma_lut.md` R101 to R106): its look-up does not fall from neighbour to neighbour, hence not
between any two indices, and so the entry in the middle bounds both halves. -/

namespace Sys2Proof.Machine

/-- `40_gamma_lut.md` R103 at an index below the last. -/
theorem lookup_le_lookup_add_one {i : Intensity} (hi : i ≠ 255) : lookup i ≤ lookup (i + 1) := by
  have below : i.toNat < 255 := by bv_omega
  have rising : lookup (BitVec.ofNat 8 i.toNat) ≤ lookup (BitVec.ofNat 8 (i.toNat + 1)) := lookup_rising below
  rwa [BitVec.ofNat_add, BitVec.ofNat_toNat, BitVec.setWidth_eq] at rising

/-- From neighbours to any two indices, by the library's induction along the interval of the indices. -/
theorem lookup_ofNat_monotoneOn : MonotoneOn (fun i : Nat => (lookup (BitVec.ofNat 8 i)).toNat) (Set.Iic 255) :=
  monotoneOn_of_le_add_one Set.ordConnected_Iic fun _ _ _ next => lookup_rising next

/-- `40_gamma_lut.md` R106: a larger index has no smaller entry. -/
theorem lookup_le_lookup {i j : Intensity} (hij : i ≤ j) : lookup i ≤ lookup j := by
  have inRange (k : Intensity) : k.toNat ∈ Set.Iic 255 := Nat.le_of_lt_succ k.isLt
  have entries := lookup_ofNat_monotoneOn (inRange i) (inRange j) hij
  simpa only [BitVec.le_def, BitVec.ofNat_toNat, BitVec.setWidth_eq] using entries

/-- Settles O50: R101, R102 and R104 at their indices, and R103 between neighbours. -/
theorem gammaTableHasTheStatedProperties : Obligations.GammaTableHasTheStatedProperties :=
  ⟨lookup_zero, lookup_last, fun _ => lookup_le_lookup_add_one, lookup_middle⟩

/-- Settles O51: the look-up is monotone, so the entry at 128 bounds those up to it and those from it. -/
theorem gammaTableIsMonotoneAndBounded : Obligations.GammaTableIsMonotoneAndBounded := by
  unfold Obligations.GammaTableIsMonotoneAndBounded
  have middle : lookup 128 = 2048 := lookup_middle
  refine ⟨fun _ _ => lookup_le_lookup, fun i => Nat.le_of_lt_succ (lookup i).isLt, fun i hi => ?_, fun i hi => ?_⟩
  · calc lookup i ≤ lookup 128 := lookup_le_lookup hi
      _ = 2048 := middle
  · calc (2048 : Count) = lookup 128 := middle.symm
      _ ≤ lookup i := lookup_le_lookup hi

end Sys2Proof.Machine
end

section
/-! PROOFS. The critical section and the compare write (`41_primitives.md` R110 to R116): the critical section restores `IE`, and
the comparators read a new compare value in the state its `SETCOLOR` leaves. -/

namespace Sys2Proof.Machine

variable {s : State}

/-! ### Interrupt enable -/

/-- What a critical section restores is the saved `IE`, so a body that keeps `SAVED_IE` is enough. -/
theorem criticalSection_ie {body : State → State} (keepsSaved : ∀ t, (body t).savedIe = t.savedIe) :
    (criticalSection body s).ie = s.ie :=
  calc (criticalSection body s).ie
      = (body (maskInterrupts s)).savedIe := restoreInterrupts_ie _
    _ = (maskInterrupts s).savedIe := keepsSaved _
    _ = s.ie := maskInterrupts_savedIe s

/-- Settles O31: a critical section restores what it saved, and no effect of a command leaves another `IE`. -/
theorem criticalSectionRestoresInterruptEnable : Obligations.CriticalSectionRestoresInterruptEnable := by
  unfold Obligations.CriticalSectionRestoresInterruptEnable
  refine ⟨fun body s _ keepsSaved => criticalSection_ie keepsSaved, fun i s t answered => ?_⟩
  obtain ⟨-, effect⟩ := exec_next answered
  exact effect.ie_eq

/-- Settles O30: the two micro-operations by their definitions, the critical section by what it leaves. -/
theorem maskSavesAndRestorePutsBack : Obligations.MaskSavesAndRestorePutsBack := by
  unfold Obligations.MaskSavesAndRestorePutsBack
  exact fun s => ⟨rfl, rfl, fun body => ⟨_, rfl, criticalSection_eq s body⟩⟩

/-! ### The compare write -/

@[simp] theorem setcolorWrites_counter (r g b : Intensity) (u : UnitId) :
    (setcolorWrites r g b s).counter u = s.counter u := by cases u <;> rfl

/-- After `SETCOLOR` each comparator holds the unchanged counter against the entry of its own field of the new colour. -/
theorem active_setcolorWrites (r g b : Intensity) (c : Channel) :
    active (noResponse (setcolorWrites r g b s)) c
      = activeAt (s.counter c.unit).cnt (s.counter c.unit).dir (lookup (colorField (packColor r g b) c)) := by
  simp only [active, noResponse_counter, noResponse_channel, setcolorWrites_counter, setcolorWrites_channel]

/-- Settles O28: `SETCOLOR` runs, and each channel's field of the new colour is its operand. -/
theorem newCompareValueActsAtOnce : Obligations.NewCompareValueActsAtOnce := by
  unfold Obligations.NewCompareValueActsAtOnce
  intro r g b s unfaulted initialised
  refine ⟨_, exec_setcolor_of_initialised unfaulted initialised r g b, ?_, ?_, ?_⟩
  · rw [active_setcolorWrites, colorField_red_packColor, unit_red, counter_a]
  · rw [active_setcolorWrites, colorField_green_packColor, unit_green, counter_a]
  · rw [active_setcolorWrites, colorField_blue_packColor, unit_blue, counter_b]

end Sys2Proof.Machine
end

section
/-! PROOFS. The lifecycle commands (`42_lifecycle.md` R130 to R136): what a command does by its entry of the legality table, the
whole next state of `INIT`, `ENABLE` and `DISABLE`, and that no command fails other than by misuse. -/

namespace Sys2Proof.Machine

open Sys2Proof.Safety

variable {s : State} {i : Instr} {ch : PwmChannel}

/-! ### The entries of the legality table -/

theorem initialised_iff : Initialised s ↔ s.life = .disabled ∨ s.life = .enabled := by
  unfold Initialised
  cases s.life <;> decide

theorem legalIn_name_eq_false
    (h : (s.life = .uninitialized ∧ i.name ≠ .init) ∨ (s.life ≠ .uninitialized ∧ i.name = .init)) :
    legalIn i.name s.life = false := by
  obtain ⟨life, other⟩ | ⟨initialised, name⟩ := h
  · exact Bool.eq_false_iff.mpr fun legal => (legalIn_other other).mp legal life
  · rw [name]
    exact Bool.eq_false_iff.mpr (mt legalIn_init.mp initialised)

theorem name_eq_init_iff : i.name = .init ↔ i = .init := by
  cases i <;> simp [Instr.name]

/-- Every command begins with the entry checks (`42_lifecycle.md` R135). -/
theorem exec_eq_beginCommand (i : Instr) (s : State) : ∃ go, exec i s = beginCommand i.name s go := by
  cases i <;> exact ⟨_, rfl⟩

section
variable (unfaulted : s.fault = none)
include unfaulted

theorem exec_of_misuse (illegal : legalIn i.name s.life = false) :
    exec i s = .next { s with fault := some (.lifecycleMisuse i.name s.life), resp := none } := by
  obtain ⟨go, begins⟩ := exec_eq_beginCommand i s
  rw [begins, beginCommand_of_misuse unfaulted illegal]

theorem exec_init_of_ie_on (life : s.life = .uninitialized) (on : s.ie = true) :
    exec .init s = .next { s with fault := some .initPreemptible, resp := none } := by
  change execInit s = _
  rw [execInit, beginCommand_of_legal unfaulted (legalIn_init.mpr life), if_pos on, raiseFault_eq]

theorem exec_init_of_ie_off (life : s.life = .uninitialized) (off : s.ie = false) :
    exec .init s = .next (noResponse (initWrites s)) := by
  have notOn : ¬ s.ie = true := Bool.eq_false_iff.mp off
  change execInit s = _
  rw [execInit, beginCommand_of_legal unfaulted (legalIn_init.mpr life), if_neg notOn]

/-- A command other than `INIT` runs in an initialised state and leaves no mark. -/
theorem exec_of_initialised (initialised : Initialised s) (other : i.name ≠ .init) :
    ∃ t, exec i s = .next t ∧ t.fault = none := by
  cases i with
  | init => exact absurd rfl other
  | enable => exact ⟨_, exec_enable_of_initialised unfaulted initialised, unfaulted⟩
  | disable => exact ⟨_, exec_disable_of_initialised unfaulted initialised, unfaulted⟩
  | setcolor r g b => exact ⟨_, exec_setcolor_of_initialised unfaulted initialised r g b, unfaulted⟩
  | getcolor => exact ⟨_, exec_getcolor_of_initialised unfaulted initialised, unfaulted⟩

/-- A legal entry of the table. -/
theorem exec_of_legal
    (legal : (s.life = .uninitialized ∧ i.name = .init ∧ s.ie = false) ∨ (s.life ≠ .uninitialized ∧ i.name ≠ .init)) :
    ∃ t, exec i s = .next t ∧ t.fault = none := by
  obtain ⟨life, name, off⟩ | ⟨initialised, other⟩ := legal
  · obtain rfl := name_eq_init_iff.mp name
    exact ⟨_, exec_init_of_ie_off unfaulted life off, unfaulted⟩
  · exact exec_of_initialised unfaulted initialised other

end

/-! ### The entries that change nothing -/

theorem connect_of_connected (h : ch.com = true) : { ch with com := true } = ch := by rw [← h]

theorem disconnect_of_disconnected (com : ch.com = false) (latch : ch.latch = true) :
    { ch with com := false, latch := true } = ch := by rw [← com, ← latch]

theorem enableWrites_of_enabled (h : RegistersConsistent s) (life : s.life = .enabled) :
    enableWrites s = { s with savedIe := s.ie } := by
  have connected (c : Channel) : (s.channel c).com = true := h.connected life c
  rw [enableWrites_eq, connect_of_connected (ch := s.red) (connected .red),
    connect_of_connected (ch := s.green) (connected .green), connect_of_connected (ch := s.blue) (connected .blue), ← life]

theorem disableWrites_of_disabled (h : RegistersConsistent s) (life : s.life = .disabled) :
    disableWrites s = { s with savedIe := s.ie } := by
  have initialised : Initialised s := initialised_iff.mpr (.inl life)
  have com (c : Channel) : (s.channel c).com = false := h.disconnected life c
  have latch (c : Channel) : (s.channel c).latch = true := (h.outputs initialised c).2
  rw [disableWrites_eq, disconnect_of_disconnected (ch := s.red) (com .red) (latch .red),
    disconnect_of_disconnected (ch := s.green) (com .green) (latch .green),
    disconnect_of_disconnected (ch := s.blue) (com .blue) (latch .blue), ← life]

/-- Settles O14: the legal and the misuse entries by the entry checks; in a consistent state the writes of the "legal, no change"
entries are what the registers hold already. -/
theorem legalityTableDecidesMisuse : Obligations.LegalityTableDecidesMisuse := by
  unfold Obligations.LegalityTableDecidesMisuse
  refine fun i s unfaulted => ⟨exec_of_legal unfaulted,
    fun misuse => exec_of_misuse unfaulted (legalIn_name_eq_false misuse), fun consistent noChange => ?_⟩
  obtain ⟨life, rfl⟩ | ⟨life, rfl⟩ := noChange
  · have initialised : Initialised s := initialised_iff.mpr (.inr life)
    rw [exec_enable_of_initialised unfaulted initialised, enableWrites_of_enabled consistent life]
    rfl
  · have initialised : Initialised s := initialised_iff.mpr (.inl life)
    rw [exec_disable_of_initialised unfaulted initialised, disableWrites_of_disabled consistent life]
    rfl

/-! ### Every move answers in an unfaulted state -/

/-- In an unfaulted state a command is misuse, or it is `INIT` with either value of `IE`, or it runs. -/
theorem exec_answers (unfaulted : s.fault = none) (i : Instr) : ∃ t, exec i s = .next t := by
  cases legal : legalIn i.name s.life with
  | false => exact ⟨_, exec_of_misuse unfaulted legal⟩
  | true =>
    by_cases name : i.name = .init
    · obtain rfl := name_eq_init_iff.mp name
      have life : s.life = .uninitialized := legalIn_init.mp legal
      cases ie : s.ie with
      | true => exact ⟨_, exec_init_of_ie_on unfaulted life ie⟩
      | false => exact ⟨_, exec_init_of_ie_off unfaulted life ie⟩
    · obtain ⟨t, runs, -⟩ := exec_of_initialised unfaulted ((legalIn_other name).mp legal) name
      exact ⟨t, runs⟩

theorem commandStep_answers (unfaulted : s.fault = none) (w : Word) : ∃ t, commandStep w s = .next t := by
  cases decoded : decode w with
  | ok i =>
    rw [commandStep_of_ok decoded]
    exact exec_answers unfaulted i
  | error r =>
    rw [commandStep_of_error decoded]
    exact ⟨_, illegalCommand_of_unfaulted unfaulted w⟩

theorem moveStep_answers (unfaulted : s.fault = none) (m : Move) : ∃ t, moveStep m s = .next t := by
  cases m with
  | command w => exact commandStep_answers unfaulted w
  | tick | hostSetsIe | rst => exact ⟨_, rfl⟩

/-- Settles O37: taking the move leaves the state unfaulted, and then every move answers. -/
theorem unfaultedStateNeverStops : Obligations.UnfaultedStateNeverStops := by
  unfold Obligations.UnfaultedStateNeverStops
  intro s unfaulted
  have unfaulted' : (takeMove s).fault = none := unfaulted
  exact moveStep_answers unfaulted' (nextMove s)

/-! ### The step of a command word -/

theorem step_of_decoded {w : Word} (next : nextMove s = .command w) (decoded : decode w = .ok i) :
    step s = exec i (takeMove s) := by
  rw [step, next]
  exact commandStep_of_ok decoded _

/-- Within the list the index moves on by one. -/
theorem takeMove_of_lt (inside : s.host.index < s.host.script.length) :
    takeMove s = { s with host := { s.host with index := s.host.index + 1 }, draw := s.draw + 1 } := by
  rw [takeMove, HostAgent.advance, if_pos inside]

/-- Settles O7: the move at the index is the next one, and it stands within the list. -/
theorem commandStepRunsTheDecodedCommand : Obligations.CommandStepRunsTheDecodedCommand := by
  unfold Obligations.CommandStepRunsTheDecodedCommand
  intro s w i placed decoded
  obtain ⟨inside, -⟩ := List.getElem?_eq_some_iff.mp placed
  exact ⟨step_of_decoded (nextMove_of_getElem? placed) decoded, takeMove_of_lt inside⟩

/-! ### The whole next states -/

/-- Position 0 is the bottom of the rising half. -/
theorem configured_zero : CounterUnit.configured 0 = { mode := .phaseCorrect, run := true, cnt := 0, dir := .up } := by
  rw [CounterUnit.configured, tri_of_lt_top (by omega)]
  rfl

/-- Settles O15: `INIT` runs, and its writes leave counter A at the bottom of its rise. -/
theorem initConfiguresTheUnit : Obligations.InitConfiguresTheUnit := by
  unfold Obligations.InitConfiguresTheUnit
  intro s unfaulted life off
  rw [exec_init_of_ie_off unfaulted life off, initWrites_eq, configured_zero]
  rfl

/-- Settles O18: `ENABLE` runs in an initialised state. -/
theorem enableConnectsAllChannels : Obligations.EnableConnectsAllChannels := by
  unfold Obligations.EnableConnectsAllChannels
  intro s unfaulted life
  rw [exec_enable_of_initialised unfaulted (initialised_iff.mpr life), enableWrites_eq]
  rfl

/-- Settles O19: `DISABLE` runs in an initialised state. -/
theorem disableDisconnectsAllChannels : Obligations.DisableDisconnectsAllChannels := by
  unfold Obligations.DisableDisconnectsAllChannels
  intro s unfaulted life
  rw [exec_disable_of_initialised unfaulted (initialised_iff.mpr life), disableWrites_eq]
  rfl

/-! ### The pins after `INIT` -/

theorem pinLevel_of_initialised (initialised : Initialised s) (c : Channel) :
    pinLevel s c = driverLevel (s.channel c) (active s c) := if_neg initialised

/-- The driver of a disconnected output shows its latch, whatever the comparator says. -/
theorem driverLevel_of_disconnected (oe : ch.oe = true) (com : ch.com = false) (isActive : Bool) :
    driverLevel ch isActive = if ch.latch then .high else .low := by
  simp only [driverLevel, oe, com, Bool.true_eq_false, Bool.false_eq_true, if_false]

/-- Settles O16: `INIT` leaves every channel disconnected with its latch high; the look-up of black is the zero it writes. -/
theorem initLeavesEveryPinHigh : Obligations.InitLeavesEveryPinHigh := by
  unfold Obligations.InitLeavesEveryPinHigh
  intro s unfaulted life off
  have channels (c : Channel) : (noResponse (initWrites s)).channel c = { cmp := 0, com := false, latch := true, oe := true } :=
    initWrites_channel s c
  refine ⟨_, exec_init_of_ie_off unfaulted life off, fun a b c => ?_, fun black c => ⟨?_, ?_⟩⟩
  · have initialised : Initialised { noResponse (initWrites s) with unitA := a, unitB := b } := initialised_iff.mpr (.inl rfl)
    have channel : State.channel { noResponse (initWrites s) with unitA := a, unitB := b } c
        = { cmp := 0, com := false, latch := true, oe := true } := channels c
    rw [pinLevel_of_initialised initialised, channel, driverLevel_of_disconnected rfl rfl]
    rfl
  · rw [channels]
  · rw [noResponse_color, initWrites_color, black]
    calc lookup (colorField 0 c) = lookup 0 := congrArg lookup (colorField_zero c)
      _ = 0 := lookup_zero

end Sys2Proof.Machine
end

section
/-! PROOFS. Runs of the machine (`70_reset_and_hazards.md` R234): which move comes next, which moves remain, and the induction
along an unfaulted run without a reset. -/

namespace Sys2Proof.Safety

open Sys2Proof.Machine

variable {i : Instr} {m : Move} {moves : List Move} {s t : State} {n : Nat}

/-! ### The moves that remain -/

/-- The moves the host's list still holds. -/
def remaining (s : State) : List Move := s.host.script.drop s.host.index

theorem upcoming_eq_take_remaining (n : Nat) (s : State) : upcoming n s = (remaining s).take n := rfl

/-- The next move is the first that remains, and the tick when none does. -/
theorem nextMove_eq_head_remaining (s : State) : nextMove s = (remaining s).head?.getD .tick := by
  rw [nextMove, remaining, List.head?_drop]

theorem nextMove_of_remaining (h : remaining s = m :: moves) : nextMove s = m := by
  rw [nextMove_eq_head_remaining, h]
  rfl

theorem step_of_remaining_command (h : remaining s = .command (encode i) :: moves) : step s = exec i (takeMove s) :=
  step_of_decoded (nextMove_of_remaining h) (decode_encode i)

theorem remaining_takeMove (s : State) : remaining (takeMove s) = (remaining s).tail := by
  simp only [remaining, takeMove_host, advance_script, advance_index, List.tail_drop]
  split
  · rfl
  · next pastEnd => rw [List.drop_eq_nil_of_le (by omega), List.drop_eq_nil_of_le (by omega)]

/-- A step takes the first move that remains and touches no other. -/
theorem remaining_of_step (h : step s = .next t) : remaining t = (remaining s).tail := by
  have effect : StepEffect (nextMove s) (takeMove s) t := step_next h
  rw [← remaining_takeMove, remaining, effect.script_eq, effect.index_eq, remaining]

theorem nextMove_eq_tick_or_mem_upcoming (n : Nat) (s : State) : nextMove s = .tick ∨ nextMove s ∈ upcoming (n + 1) s := by
  rw [nextMove_eq_head_remaining, upcoming_eq_take_remaining]
  cases remaining s with
  | nil => exact .inl rfl
  | cons m moves => exact .inr List.mem_cons_self

theorem upcoming_of_step (h : step s = .next t) (n : Nat) : upcoming n t = (upcoming (n + 1) s).tail := by
  rw [upcoming_eq_take_remaining, upcoming_eq_take_remaining, remaining_of_step h]
  cases remaining s with
  | nil => exact List.take_nil
  | cons m moves => rfl

/-! ### Unfaulted runs -/

theorem FaultFreeRun.unfaulted_end (run : FaultFreeRun n s t) : t.fault = none := by
  induction n generalizing s with
  | zero =>
    obtain ⟨unfaulted, rfl⟩ := run
    exact unfaulted
  | succ n ih =>
    obtain ⟨-, u, -, rest⟩ := run
    exact ih rest

theorem FaultFreeRun.unfaulted_start (run : FaultFreeRun n s t) : s.fault = none := by
  cases n with
  | zero => exact run.1
  | succ n => exact run.1

/-- What every step keeps that leaves no mark and is no reset holds at the end of an unfaulted run without a reset. -/
theorem FaultFreeRun.keeps {P : State → Prop}
    (keep : ∀ {s t}, step s = .next t → t.fault = none → (∀ lost lostTick, nextMove s ≠ .rst lost lostTick) → P s → P t)
    (run : FaultFreeRun n s t) (noReset : ∀ m ∈ upcoming n s, ∀ lost lostTick, m ≠ .rst lost lostTick) (start : P s) :
    P t := by
  induction n generalizing s with
  | zero =>
    obtain ⟨-, rfl⟩ := run
    exact start
  | succ n ih =>
    obtain ⟨-, u, first, rest⟩ := run
    have firstNoReset : ∀ lost lostTick, nextMove s ≠ .rst lost lostTick := by
      obtain tick | listed := nextMove_eq_tick_or_mem_upcoming n s
      · rw [tick]; exact nofun
      · exact noReset _ listed
    have restNoReset : ∀ m ∈ upcoming n u, ∀ lost lostTick, m ≠ .rst lost lostTick := fun m hm =>
      noReset m (List.mem_of_mem_tail (upcoming_of_step first n ▸ hm))
    exact ih rest restNoReset (keep first rest.unfaulted_start firstNoReset start)

end Sys2Proof.Safety

namespace Sys2Proof.Machine

open Sys2Proof.Safety

variable {i : Instr} {m : Move} {s t : State}

/-! ### Initialised states -/

theorem CommandEffect.initialised (he : CommandEffect i s t) (h : Initialised s) : Initialised t := by
  by_cases same : t.life = s.life
  · exact fun life => h (same.symm.trans life)
  · obtain ⟨-, -, life⟩ | ⟨-, -, life⟩ | ⟨-, -, life⟩ := he.life_ne same
    · exact initialised_iff.mpr (.inl life)
    · exact initialised_iff.mpr (.inr life)
    · exact initialised_iff.mpr (.inl life)

/-- Only reset leads back to `Uninitialized` (`10_state.md` R24). -/
theorem StepEffect.initialised (he : StepEffect m s t) (noReset : ∀ lost lostTick, m ≠ .rst lost lostTick)
    (h : Initialised s) : Initialised t := by
  obtain ⟨-, -, life, -⟩ | ⟨w, i, -, -, effect⟩ | ⟨lost, lostTick, hm, -⟩ := he.same_or_command_or_rst
  · exact fun uninitialized => h (life.symm.trans uninitialized)
  · exact effect.initialised h
  · exact absurd hm (noReset lost lostTick)

/-- Without a mark and without a reset, an initialised state that meets R36 is followed by another. -/
theorem registersConsistent_and_initialised_of_step (stepped : step s = .next t) (unmarked : t.fault = none)
    (noReset : ∀ lost lostTick, nextMove s ≠ .rst lost lostTick) (h : RegistersConsistent s ∧ Initialised s) :
    RegistersConsistent t ∧ Initialised t :=
  ⟨everyStepKeepsConsistency s t (fun _ => h.1) stepped unmarked, (step_next stepped).initialised noReset h.2⟩

end Sys2Proof.Machine
end

section
/-! PROOFS. The pins of a state that meets the invariant (`44_pwm_datapath.md` R177, R178; `10_state.md` R36). -/

namespace Sys2Proof.Machine

open Sys2Proof.Safety

variable {s : State} {ch : PwmChannel}

/-- The driver of a connected output shows the comparator, active-low. -/
theorem driverLevel_of_connected (oe : ch.oe = true) (com : ch.com = true) (isActive : Bool) :
    driverLevel ch isActive = if isActive then .low else .high := by
  simp only [driverLevel, oe, com, Bool.true_eq_false, if_false, if_true]

/-- The comparator works on the table's entry of the cached colour. -/
theorem active_of_registersConsistent (h : RegistersConsistent s) (initialised : Initialised s) (c : Channel) :
    active s c = activeAt (s.counter c.unit).cnt (s.counter c.unit).dir (lookup (colorField s.color c)) := by
  rw [active, h.compares initialised c]

theorem pinLevel_of_enabled (h : RegistersConsistent s) (life : s.life = .enabled) (c : Channel) :
    pinLevel s c = if activeAt (s.counter c.unit).cnt (s.counter c.unit).dir (lookup (colorField s.color c)) then .low
      else .high := by
  have initialised : Initialised s := initialised_iff.mpr (.inr life)
  rw [pinLevel_of_initialised initialised, driverLevel_of_connected (h.outputs initialised c).1 (h.connected life c),
    active_of_registersConsistent h initialised]

theorem pinLevel_of_disabled (h : RegistersConsistent s) (life : s.life = .disabled) (c : Channel) : pinLevel s c = .high := by
  have initialised : Initialised s := initialised_iff.mpr (.inl life)
  obtain ⟨oe, latch⟩ := h.outputs initialised c
  rw [pinLevel_of_initialised initialised, driverLevel_of_disconnected oe (h.disconnected life c), latch, if_pos rfl]

/-- Settles O29: `SETCOLOR` leaves an initialised state that meets R36, every further step of the run keeps both, and they give
the compare registers and the pins. -/
theorem comparesFollowTheCacheUntilReset : Obligations.ComparesFollowTheCacheUntilReset := by
  unfold Obligations.ComparesFollowTheCacheUntilReset
  intro r g b s t u n _ initialised consistent setcolor run noReset
  obtain ⟨-, effect⟩ := exec_next setcolor
  have start : RegistersConsistent t ∧ Initialised t :=
    ⟨effect.registersConsistent consistent run.unfaulted_start, effect.initialised initialised⟩
  obtain ⟨consistent', initialised'⟩ := run.keeps registersConsistent_and_initialised_of_step noReset start
  exact ⟨consistent'.compares initialised', fun life => pinLevel_of_enabled consistent' life,
    fun life => pinLevel_of_disabled consistent' (life_eq_disabled initialised' life)⟩

end Sys2Proof.Machine
end

section
/-! PROOFS. The colour commands (`43_color.md` R150 to R152): their whole next states, and the round trip of a colour. -/

namespace Sys2Proof.Machine

open Sys2Proof.Safety

variable {i : Instr} {m : Move} {moves : List Move} {color : Rgb} {s : State}

/-! ### The whole next states -/

/-- Settles O22: `SETCOLOR` runs in an initialised state, and the fields of a packed colour are its parts. -/
theorem setcolorWritesCacheAndCompares : Obligations.SetcolorWritesCacheAndCompares := by
  unfold Obligations.SetcolorWritesCacheAndCompares
  intro r g b s unfaulted life
  refine ⟨?_, colorField_red_packColor r g b, colorField_green_packColor r g b, colorField_blue_packColor r g b⟩
  rw [exec_setcolor_of_initialised unfaulted (initialised_iff.mpr life), setcolorWrites_eq]
  rfl

/-- Settles O23: `GETCOLOR` runs in an initialised state, and its word is the cached colour byte by byte. -/
theorem getcolorAnswersTheCache : Obligations.GetcolorAnswersTheCache := by
  unfold Obligations.GetcolorAnswersTheCache
  intro s unfaulted life
  rw [exec_getcolor_of_initialised unfaulted (initialised_iff.mpr life), responseWord_eq_formatC]
  rfl

/-! ### The round trip of a colour -/

theorem responseWord_packColor (r g b : Intensity) : responseWord (packColor r g b) = (0 : BitVec 8) ++ r ++ g ++ b := by
  rw [responseWord_eq_formatC, colorField_red_packColor, colorField_green_packColor, colorField_blue_packColor, formatC]

/-- An unfaulted initialised state with the cached colour and the moves that remain. -/
structure HoldsColor (color : Rgb) (moves : List Move) (s : State) : Prop where
  unfaulted : s.fault = none
  initialised : Initialised s
  cached : s.color = color
  remaining : remaining s = moves

/-- The moves of `43_color.md` R152 between the two commands: the tick, and the commands that do not write the colour. -/
def KeepsColor (m : Move) : Prop :=
  m = .tick ∨ m = .command (encode .enable) ∨ m = .command (encode .disable) ∨ m = .command (encode .getcolor)

/-- A command that writes no colour runs in an initialised state and leaves one. -/
theorem exec_keeps_color (unfaulted : s.fault = none) (initialised : Initialised s) (notInit : i.name ≠ .init)
    (notSetcolor : ∀ r g b, i ≠ .setcolor r g b) :
    ∃ t, exec i s = .next t ∧ t.fault = none ∧ Initialised t ∧ t.color = s.color := by
  obtain ⟨t, answers, unmarked⟩ := exec_of_initialised unfaulted initialised notInit
  obtain ⟨-, effect⟩ := exec_next answers
  have color : t.color = s.color := by
    by_contra changed
    obtain ⟨r, g, b, set⟩ := effect.color_ne changed
    exact notSetcolor r g b set
  exact ⟨t, answers, unmarked, effect.initialised initialised, color⟩

section
variable (h : HoldsColor color (m :: moves) s)
include h

/-- After a step one move fewer remains. -/
theorem HoldsColor.after_step {color' : Rgb} {t : State} (stepped : step s = .next t) (unmarked : t.fault = none)
    (initialised : Initialised t) (cached : t.color = color') : HoldsColor color' moves t := by
  refine ⟨unmarked, initialised, cached, ?_⟩
  rw [remaining_of_step stepped, h.remaining, List.tail_cons]

theorem HoldsColor.step_of_command (hm : m = .command (encode i)) (notInit : i.name ≠ .init)
    (notSetcolor : ∀ r g b, i ≠ .setcolor r g b) : ∃ t, step s = .next t ∧ HoldsColor color moves t := by
  subst hm
  obtain ⟨t, answers, unmarked, initialised, color⟩ :=
    exec_keeps_color (s := takeMove s) h.unfaulted h.initialised notInit notSetcolor
  have stepped : step s = .next t := (step_of_remaining_command h.remaining).trans answers
  exact ⟨t, stepped, h.after_step stepped unmarked initialised (color.trans h.cached)⟩

/-- A step on a move that writes no colour. -/
theorem HoldsColor.step_of_keepsColor (hm : KeepsColor m) : ∃ t, step s = .next t ∧ HoldsColor color moves t := by
  obtain rfl | enable | disable | getcolor := hm
  · have stepped : step s = .next (tickStep (takeMove s)) := by
      rw [step, nextMove_of_remaining h.remaining]
      rfl
    exact ⟨_, stepped, h.after_step stepped h.unfaulted h.initialised h.cached⟩
  · exact h.step_of_command enable (by decide) nofun
  · exact h.step_of_command disable (by decide) nofun
  · exact h.step_of_command getcolor (by decide) nofun

end

/-- `SETCOLOR` leaves its colour in the cache. -/
theorem HoldsColor.step_setcolor {r g b : Intensity} (h : HoldsColor color (.command (encode (.setcolor r g b)) :: moves) s) :
    ∃ t, step s = .next t ∧ HoldsColor (packColor r g b) moves t := by
  have stepped : step s = .next (noResponse (setcolorWrites r g b (takeMove s))) :=
    (step_of_remaining_command h.remaining).trans
      (exec_setcolor_of_initialised (s := takeMove s) h.unfaulted h.initialised r g b)
  exact ⟨_, stepped, h.after_step stepped h.unfaulted h.initialised rfl⟩

/-- `GETCOLOR` answers the cached colour. -/
theorem HoldsColor.step_getcolor (h : HoldsColor color (.command (encode .getcolor) :: moves) s) :
    ∃ t, step s = .next t ∧ t.fault = none ∧ t.resp = some (responseWord color) := by
  have stepped : step s = .next (respond (responseWord s.color) (takeMove s)) :=
    (step_of_remaining_command h.remaining).trans
      (exec_getcolor_of_initialised (s := takeMove s) h.unfaulted h.initialised)
  exact ⟨_, stepped, h.unfaulted, by rw [respond_resp, h.cached]⟩

/-- Moves that write no colour, then `GETCOLOR`: by induction on the moves, each of which leaves the same colour. -/
theorem HoldsColor.run_then_getcolor {between rest : List Move}
    (h : HoldsColor color (between ++ .command (encode .getcolor) :: rest) s) (keep : ∀ m ∈ between, KeepsColor m) :
    ∃ t, FaultFreeRun (between.length + 1) s t ∧ t.resp = some (responseWord color) := by
  induction between generalizing s with
  | nil =>
    obtain ⟨t, stepped, unmarked, response⟩ := h.step_getcolor
    exact ⟨t, ⟨h.unfaulted, t, stepped, unmarked, rfl⟩, response⟩
  | cons m between ih =>
    obtain ⟨keepHead, keepTail⟩ := List.forall_mem_cons.mp keep
    obtain ⟨u, stepped, holds⟩ := h.step_of_keepsColor keepHead
    obtain ⟨t, run, response⟩ := ih holds keepTail
    exact ⟨t, ⟨h.unfaulted, u, stepped, run⟩, response⟩

/-- Settles O25: `SETCOLOR` puts the colour into the cache, the moves between leave it there, and `GETCOLOR` answers it. -/
theorem setThenGetAnswersTheColour : Obligations.SetThenGetAnswersTheColour := by
  unfold Obligations.SetThenGetAnswersTheColour
  intro s r g b between rest unfaulted initialised keep script
  have start : HoldsColor s.color _ s := ⟨unfaulted, initialised, rfl, script⟩
  obtain ⟨u, stepped, holds⟩ := start.step_setcolor
  obtain ⟨t, run, response⟩ := holds.run_then_getcolor keep
  rw [responseWord_packColor] at response
  exact ⟨t, ⟨unfaulted, u, stepped, run⟩, run.unfaulted_end, response⟩

end Sys2Proof.Machine
end

section
/-! PROOFS. The draw counter (notes/assumptions/7.md): the effects of a step do not read it, and each effect is one the step has. -/

namespace Sys2Proof.Machine

variable {i : Instr} {m : Move} {s t : State}

/-- The converse of `exec_next`. -/
theorem CommandEffect.exec_eq (he : CommandEffect i s t) (unfaulted : s.fault = none) : exec i s = .next t := by
  cases he with
  | misuse illegal => exact exec_of_misuse unfaulted illegal
  | preemptible life on => exact exec_init_of_ie_on unfaulted life on
  | init life off => exact exec_init_of_ie_off unfaulted life off
  | enable life => exact exec_enable_of_initialised unfaulted life
  | disable life => exact exec_disable_of_initialised unfaulted life
  | setcolor life => exact exec_setcolor_of_initialised unfaulted life _ _ _
  | getcolor life => exact exec_getcolor_of_initialised unfaulted life

/-- The converse of `moveStep_next`. -/
theorem StepEffect.moveStep_eq (he : StepEffect m s t) : moveStep m s = .next t := by
  cases he with
  | command decoded unfaulted effect => exact (commandStep_of_ok decoded s).trans (effect.exec_eq unfaulted)
  | reserved rejected unfaulted =>
    exact (commandStep_of_error rejected s).trans (illegalCommand_of_unfaulted unfaulted _)
  | tick | hostSetsIe | rst => rfl

/-- No command reads or writes the draw counter. -/
theorem CommandEffect.withDraw (he : CommandEffect i s t) (d : Nat) :
    CommandEffect i { s with draw := d } { t with draw := d } := by
  cases he with
  | misuse illegal => exact .misuse (s := { s with draw := d }) illegal
  | preemptible life on => exact .preemptible (s := { s with draw := d }) life on
  | init life off => exact .init (s := { s with draw := d }) life off
  | enable life => exact .enable (s := { s with draw := d }) life
  | disable life => exact .disable (s := { s with draw := d }) life
  | setcolor life => exact .setcolor (s := { s with draw := d }) life
  | getcolor life => exact .getcolor (s := { s with draw := d }) life

/-- No move reads the draw counter, and once the move is taken none writes it. -/
theorem StepEffect.withDraw (he : StepEffect m s t) (d : Nat) :
    StepEffect m { s with draw := d } { t with draw := d } := by
  cases he with
  | command decoded unfaulted effect => exact .command decoded unfaulted (effect.withDraw d)
  | reserved rejected unfaulted => exact .reserved (s := { s with draw := d }) rejected unfaulted
  | tick => exact .tick (s := { s with draw := d })
  | hostSetsIe => exact .hostSetsIe (s := { s with draw := d })
  | rst => exact .rst (s := { s with draw := d })

/-- Settles O13: the effect of the step from `s` is also one from the state with the other draw counter. -/
theorem drawCounterInfluencesNoRegister : Obligations.DrawCounterInfluencesNoRegister := by
  unfold Obligations.DrawCounterInfluencesNoRegister
  intro s t d stepped
  exact ((step_next stepped).withDraw (d + 1)).moveStep_eq

end Sys2Proof.Machine
end

section
/-! PROOFS. The triangle and the ticks on it (`44_pwm_datapath.md` R171 to R174): `tri` and the position are inverse to each other,
`n` ticks move a counter by `n` positions, and no tick wraps. -/

namespace Sys2Proof.Machine

open Sys2Proof.Safety

variable {u : CounterUnit} {p : Nat} {s : State}

/-! ### The triangle -/

/-- `positionOf` takes a point of the triangle back to its position. -/
theorem mod_eq_of_tri_eq {m n : Nat} (h : tri m = tri n) : m % 131070 = n % 131070 := by
  rw [← positionOf_tri m, h, positionOf_tri]

/-- The pairs on the triangle are those that respect the turns at the top and at the bottom. -/
theorem exists_tri_eq_iff (cnt : Count) (dir : Dir) :
    (∃ n, n < 131070 ∧ tri n = (cnt, dir)) ↔ (cnt = topCount → dir = .down) ∧ (cnt = 0 → dir = .up) := by
  constructor
  · rintro ⟨n, -, h⟩
    simpa only [h] using tri_turns n
  · rintro ⟨top, bottom⟩
    obtain ⟨onTriangle, inPeriod⟩ := tri_position (u := ⟨.phaseCorrect, true, cnt, dir⟩) top bottom
    exact ⟨_, inPeriod, onTriangle.symm⟩

/-- Settles O38: `positionOf` is a left inverse, and the range is given by the turns. -/
theorem triangleIsABijection : Obligations.TriangleIsABijection := by
  unfold Obligations.TriangleIsABijection
  refine ⟨fun n => rfl, by decide, fun m n hm hn h => ?_, fun cnt dir => ?_⟩
  · have := mod_eq_of_tri_eq h
    omega
  · rw [exists_tri_eq_iff, topCount_eq]
    cases dir <;> simp

/-! ### The tick -/

theorem step_of_tick (h : nextMove s = .tick) : step s = .next (tickStep (takeMove s)) := by
  rw [step, h]
  rfl

/-- Settles O39: the tick's cases by its definition, its position form by its place on the triangle. -/
theorem tickMovesRunningCountersOnePosition : Obligations.TickMovesRunningCountersOnePosition := by
  unfold Obligations.TickMovesRunningCountersOnePosition
  refine ⟨fun s h => step_of_tick h, fun u h => tick_of_not_running h, fun u => tick_up, fun u => tick_down,
    fun u p run mode h => ?_⟩
  have moved : (u.tick.cnt, u.tick.dir) = tri (p + 1) := tick_of_tri run mode h
  refine ⟨moved, ?_⟩
  calc u.tick.position = (p + 1) % 131070 := position_of_tri moved
    _ = (p % 131070 + 1) % 131070 := (Nat.mod_add_mod p 131070 1).symm
    _ = (u.position + 1) % 131070 := by rw [position_of_tri h]

/-- A running counter on the triangle is the configured one. -/
theorem eq_configured (run : u.run = true) (mode : u.mode = .phaseCorrect) (h : (u.cnt, u.dir) = tri p) :
    u = .configured p := by
  rw [CounterUnit.configured, ← h, ← run, ← mode]

theorem tick_configured (p : Nat) : (CounterUnit.configured p).tick = .configured (p + 1) :=
  eq_configured (tick_run _) (tick_mode _) (tick_of_tri rfl rfl rfl)

theorem iterate_tick_configured (p n : Nat) : CounterUnit.tick^[n] (.configured p) = .configured (p + n) := by
  induction n with
  | zero => rfl
  | succ n ih => rw [Function.iterate_succ_apply', ih, tick_configured, Nat.add_assoc]

theorem configured_add_period (p : Nat) : CounterUnit.configured (p + 131070) = .configured p := by
  rw [CounterUnit.configured, ← tri_mod, Nat.add_mod_right, tri_mod, CounterUnit.configured]

/-- Settles O40: by induction on the ticks, and `tri` has the period 131070. -/
theorem periodOfTicksReturnsTheCounter : Obligations.PeriodOfTicksReturnsTheCounter := by
  unfold Obligations.PeriodOfTicksReturnsTheCounter
  exact fun p n => ⟨iterate_tick_configured p n, (iterate_tick_configured p 131070).trans (configured_add_period p)⟩

/-! ### No tick wraps -/

/-- A counter going up is not at the top, so the increment does not wrap. -/
theorem tick_cnt_of_up (run : u.run = true) (mode : u.mode = .phaseCorrect) (top : u.cnt = topCount → u.dir = .down)
    (up : u.dir = .up) : u.cnt.toNat ≤ 65534 ∧ u.tick.cnt.toNat = u.cnt.toNat + 1 := by
  have below : u.cnt ≠ 65535 := fun h => by
    rw [top h] at up
    cases up
  rw [tick_up run mode up]
  bv_omega

/-- A counter going down is not at the bottom, so the decrement does not wrap. -/
theorem tick_cnt_of_down (run : u.run = true) (mode : u.mode = .phaseCorrect) (bottom : u.cnt = 0 → u.dir = .up)
    (down : u.dir = .down) : 1 ≤ u.cnt.toNat ∧ u.tick.cnt.toNat + 1 = u.cnt.toNat := by
  have above : u.cnt ≠ 0 := fun h => by
    rw [bottom h] at down
    cases down
  rw [tick_down run mode down]
  bv_omega

/-- Settles O41: the counters run (R36 (b)) and turn at the top and at the bottom (R36 (e)). -/
theorem countersNeverWrap : Obligations.CountersNeverWrap := by
  unfold Obligations.CountersNeverWrap
  intro s u h initialised
  obtain ⟨mode, run⟩ := h.running initialised u
  obtain ⟨top, bottom⟩ := h.turns initialised u
  exact ⟨tick_cnt_of_up run mode top, tick_cnt_of_down run mode bottom⟩

end Sys2Proof.Machine
end

section
/-! PROOFS. The comparator over a period (`44_pwm_datapath.md` R175, R176): its window in positions, the window's size and edges. -/

namespace Sys2Proof.Machine

variable {k : Count} {p : Nat}

/-! ### The position form -/

/-- The comparator at a position: active before the compare value is reached, and from there on the way back. -/
theorem activeAt_tri_iff_of_lt (k : Count) (hp : p < 131070) :
    activeAt (tri p).1 (tri p).2 k = true ↔ p < k.toNat ∨ 131070 - k.toNat ≤ p := by
  have hk : k.toNat < 65536 := k.isLt
  rw [activeAt_iff]
  by_cases rising : p < 65535
  · rw [tri_of_lt_top rising, BitVec.toNat_ofNat, Nat.mod_eq_of_lt (by omega)]
    simp only [reduceCtorEq, and_false, or_false]
    omega
  · rw [tri_of_ge_top (by omega) hp, BitVec.toNat_ofNat, Nat.mod_eq_of_lt (by omega)]
    simp only [and_true]
    omega

/-- The same at any number of ticks, by the place in the period. -/
theorem activeAt_tri_iff (k : Count) (p : Nat) :
    activeAt (tri p).1 (tri p).2 k = true ↔ p % 131070 < k.toNat ∨ 131070 - k.toNat ≤ p % 131070 := by
  rw [← tri_mod, activeAt_tri_iff_of_lt k (Nat.mod_lt _ (by omega))]

theorem activeAt_tri_eq_false_iff (k : Count) (p : Nat) :
    activeAt (tri p).1 (tri p).2 k = false ↔ k.toNat ≤ p % 131070 ∧ p % 131070 < 131070 - k.toNat := by
  rw [← Bool.not_eq_true, activeAt_tri_iff, not_or, not_lt, not_le]

theorem active_iff (s : State) (c : Channel) :
    active s c = true ↔
      (s.counter c.unit).cnt < (s.channel c).cmp
        ∨ ((s.counter c.unit).cnt = (s.channel c).cmp ∧ (s.counter c.unit).dir = .down) := by
  rw [active, activeAt_iff, BitVec.lt_def, BitVec.toNat_inj]

/-- Settles O44: the count form by its definition, the position form on each half of the triangle. -/
theorem comparatorPositionForm : Obligations.ComparatorPositionForm := by
  unfold Obligations.ComparatorPositionForm
  exact ⟨active_iff, fun k _ hp => activeAt_tri_iff_of_lt k hp⟩

/-! ### The duty -/

/-- The first `k` and the last `k` of `n` numbers, when they do not overlap, are `2 * k`. -/
theorem count_two_ends {n k : Nat} (h : 2 * k ≤ n) : Nat.count (fun p => p < k ∨ n - k ≤ p) n = 2 * k := by
  obtain ⟨gap, rfl⟩ : ∃ gap, n = k + gap + k := ⟨n - 2 * k, by omega⟩
  have first : Nat.count (fun p => p < k ∨ k + gap + k - k ≤ p) k = k :=
    Nat.count_iff_forall.mpr fun p hp => .inl hp
  have middle : Nat.count (fun p => k + p < k ∨ k + gap + k - k ≤ k + p) gap = 0 :=
    Nat.count_iff_forall_not.mpr fun p hp => by omega
  have last : Nat.count (fun p => k + gap + p < k ∨ k + gap + k - k ≤ k + gap + p) k = k :=
    Nat.count_iff_forall.mpr fun p _ => .inr (by omega)
  rw [Nat.count_add, Nat.count_add, first, middle, last]
  omega

theorem countP_active (k : Count) :
    (List.range 131070).countP (fun p => activeAt (tri p).1 (tri p).2 k) = 2 * k.toNat := by
  have hk : 2 * k.toNat ≤ 131070 := by omega
  rw [← count_two_ends hk]
  refine List.countP_congr fun p hp => ?_
  rw [activeAt_tri_iff_of_lt k (List.mem_range.mp hp), decide_eq_true_eq]

/-! ### The edges of the window -/

section
variable (h1 : 1 ≤ k.toNat) (h2 : k.toNat ≤ 65534)
include h1 h2

/-- The comparator rises once in a period, on the way down. -/
theorem existsUnique_rising_edge :
    ∃! p, p < 131070 ∧ activeAt (tri p).1 (tri p).2 k = false ∧ activeAt (tri (p + 1)).1 (tri (p + 1)).2 k = true := by
  simp only [activeAt_tri_iff, activeAt_tri_eq_false_iff]
  exact ⟨131069 - k.toNat, by omega, fun p hp => by omega⟩

/-- The comparator falls once in a period, on the way up. -/
theorem existsUnique_falling_edge :
    ∃! p, p < 131070 ∧ activeAt (tri p).1 (tri p).2 k = true ∧ activeAt (tri (p + 1)).1 (tri (p + 1)).2 k = false := by
  simp only [activeAt_tri_iff, activeAt_tri_eq_false_iff]
  exact ⟨k.toNat - 1, by omega, fun p hp => by omega⟩

end

/-- The window is its own mirror image about the bottom of the triangle. -/
theorem activeAt_tri_mirror (k : Count) (hp : p < 131070) :
    activeAt (tri p).1 (tri p).2 k = activeAt (tri (131069 - p)).1 (tri (131069 - p)).2 k := by
  rw [Bool.eq_iff_iff, activeAt_tri_iff_of_lt k hp, activeAt_tri_iff_of_lt k (by omega)]
  omega

/-- Settles O45: every part is read from the position form of the window. -/
theorem dutyIsExactlyTheCompareValue : Obligations.DutyIsExactlyTheCompareValue := by
  unfold Obligations.DutyIsExactlyTheCompareValue
  intro k
  refine ⟨?zero, ?top, countP_active k, ?duty, fun h1 h2 =>
    ⟨fun p hp => ?window, existsUnique_rising_edge h1 h2, existsUnique_falling_edge h1 h2⟩,
    fun p hp => activeAt_tri_mirror k hp⟩
  case zero =>
    rintro rfl p
    rw [activeAt_tri_eq_false_iff, show (0 : Count).toNat = 0 from rfl]
    omega
  case top =>
    rintro rfl p
    rw [activeAt_tri_iff, show (65535 : Count).toNat = 65535 from rfl]
    omega
  case duty =>
    rw [countP_active]
    omega
  case window =>
    rw [activeAt_tri_iff_of_lt k hp]
    omega

end Sys2Proof.Machine
end

section
/-! PROOFS. The pins and the comparators (`44_pwm_datapath.md` R177 to R182): the driver's three cases, the pins of each lifecycle
state, and the worked waveform. -/

namespace Sys2Proof.Machine

open Sys2Proof.Safety

variable {s : State} {c : Channel} {p : Nat}

/-! ### The pin driver -/

theorem pinLevel_of_undriven (initialised : Initialised s) (oe : (s.channel c).oe = false) : pinLevel s c = .z := by
  rw [pinLevel_of_initialised initialised, driverLevel, if_pos oe]

theorem pinLevel_of_connected (initialised : Initialised s) (oe : (s.channel c).oe = true) (com : (s.channel c).com = true) :
    pinLevel s c = if active s c then .low else .high := by
  rw [pinLevel_of_initialised initialised, driverLevel_of_connected oe com]

theorem pinLevel_of_disconnected (initialised : Initialised s) (oe : (s.channel c).oe = true)
    (com : (s.channel c).com = false) : pinLevel s c = if (s.channel c).latch then .high else .low := by
  rw [pinLevel_of_initialised initialised, driverLevel_of_disconnected oe com]

/-- An output is driven, whether it is connected or not. -/
theorem pinLevel_ne_z (initialised : Initialised s) (oe : (s.channel c).oe = true) : pinLevel s c ≠ .z := by
  cases com : (s.channel c).com with
  | true =>
    rw [pinLevel_of_connected initialised oe com]
    split <;> exact nofun
  | false =>
    rw [pinLevel_of_disconnected initialised oe com]
    split <;> exact nofun

/-- The LED of a driven pin is lit exactly when the pin is low. -/
theorem ledLit_iff (driven : pinLevel s c ≠ .z) : ledLit s c = true ↔ pinLevel s c = .low := by
  rw [ledLit]
  cases level : pinLevel s c with
  | low | high => simp
  | z => exact absurd level driven

/-- Settles O46: one lemma for each case of the driver, and an output is never `Z`. -/
theorem pinDriverFollowsEnableConnectLatch : Obligations.PinDriverFollowsEnableConnectLatch := by
  unfold Obligations.PinDriverFollowsEnableConnectLatch
  exact fun s c initialised => ⟨pinLevel_of_undriven initialised, pinLevel_of_connected initialised,
    pinLevel_of_disconnected initialised, fun oe => ledLit_iff (pinLevel_ne_z initialised oe)⟩

/-! ### The pins of each lifecycle state -/

theorem pinLevel_of_uninitialized (life : s.life = .uninitialized) (c : Channel) : pinLevel s c = Config.freePin s.draw c :=
  if_pos life

/-- A pin that shows the comparator is low exactly when it is active, and high exactly when it is not. -/
theorem low_iff_and_high_iff_of_eq_ite {level : PinLevel} {isActive : Bool} (h : level = if isActive then .low else .high) :
    (level = .low ↔ isActive = true) ∧ (level = .high ↔ isActive = false) := by
  subst h
  cases isActive <;> decide

theorem pinLevel_eq_active_of_enabled (h : RegistersConsistent s) (life : s.life = .enabled) (c : Channel) :
    pinLevel s c = if active s c then .low else .high := by
  rw [pinLevel_of_enabled h life, active_of_registersConsistent h (initialised_iff.mpr (.inr life))]

/-- Settles O47: the lifecycle cases of a state that meets R36. -/
theorem pinsByLifecycleState : Obligations.PinsByLifecycleState := by
  unfold Obligations.PinsByLifecycleState
  exact fun s c h => ⟨fun life => pinLevel_of_uninitialized life c, fun life => pinLevel_of_disabled h life c,
    fun life => low_iff_and_high_iff_of_eq_ite (pinLevel_eq_active_of_enabled h life c)⟩

/-- A larger compare value has the larger window. -/
theorem activeAt_mono {cnt k k' : Count} {dir : Dir} (hk : k ≤ k') (h : activeAt cnt dir k = true) :
    activeAt cnt dir k' = true := by
  rw [activeAt_iff] at h ⊢
  rw [BitVec.le_def] at hk
  obtain below | ⟨at_k, down⟩ := h
  · exact .inl (by omega)
  · obtain lt | eq := hk.lt_or_eq
    · exact .inl (by omega)
    · exact .inr ⟨by omega, down⟩

/-- Settles O48: both pins show comparators on counter A, and the larger compare value has the larger window. -/
theorem redWindowLiesInsideGreen : Obligations.RedWindowLiesInsideGreen := by
  unfold Obligations.RedWindowLiesInsideGreen
  intro s h life hle redLow
  obtain ⟨red, -⟩ := low_iff_and_high_iff_of_eq_ite (pinLevel_eq_active_of_enabled h life .red)
  obtain ⟨green, -⟩ := low_iff_and_high_iff_of_eq_ite (pinLevel_eq_active_of_enabled h life .green)
  have redActive : activeAt s.unitA.cnt s.unitA.dir s.red.cmp = true := red.mp redLow
  exact green.mpr (activeAt_mono hle redActive)

/-! ### The worked waveform -/

/-- The comparator of a channel whose counter stands at a position. -/
theorem active_eq_activeAt_tri (h : ((s.counter c.unit).cnt, (s.counter c.unit).dir) = tri p) :
    active s c = activeAt (tri p).1 (tri p).2 (s.channel c).cmp := by
  rw [active, ← h]

/-- Settles O49: at each position the three comparators are computed. -/
theorem workedWaveformHolds : Obligations.WorkedWaveformHolds := by
  unfold Obligations.WorkedWaveformHolds
  intro s p life driven red green blue unitA unitB
  have initialised : Initialised s := initialised_iff.mpr (.inr life)
  have pin (c : Channel) {k : Count} (cmp : (s.channel c).cmp = k)
      (h : ((s.counter c.unit).cnt, (s.counter c.unit).dir) = tri p) :
      pinLevel s c = if activeAt (tri p).1 (tri p).2 k then .low else .high := by
    rw [pinLevel_of_connected initialised (driven c).1 (driven c).2, active_eq_activeAt_tri h, cmp]
  rw [pin .red red unitA, pin .green green unitA, pin .blue blue unitB]
  constructor
  · rintro (rfl | rfl | rfl | rfl) <;> decide
  · rintro (rfl | rfl | rfl) <;> decide

end Sys2Proof.Machine
end

section
/-! PROOFS. The faults (`60_exceptions.md` R190 to R196): what a command word does in a faulted state and, in an unfaulted one,
which mark it records and that the mark is all it writes. -/

namespace Sys2Proof.Machine

open Sys2Proof.Safety

variable {s t : State} {i : Instr} {m : Move} {mark : FaultMark} {w : Word}

theorem step_of_command (next : nextMove s = .command w) : step s = commandStep w (takeMove s) := by
  rw [step, next]
  rfl

/-! ### A faulted state -/

theorem exec_of_faulted (faulted : s.fault = some mark) (i : Instr) : exec i s = .fault (.commandInFaultedState mark) := by
  obtain ⟨go, begins⟩ := exec_eq_beginCommand i s
  rw [begins, beginCommand_of_faulted faulted]

theorem commandStep_of_faulted (faulted : s.fault = some mark) (w : Word) :
    commandStep w s = .fault (.commandInFaultedState mark) := by
  cases decoded : decode w with
  | ok i => rw [commandStep_of_ok decoded, exec_of_faulted faulted]
  | error r => rw [commandStep_of_error decoded, illegalCommand_of_faulted faulted]

/-- Settles O35: the first entry check stops a command and a reserved word alike. -/
theorem faultedStateStopsEveryCommand : Obligations.FaultedStateStopsEveryCommand := by
  unfold Obligations.FaultedStateStopsEveryCommand
  intro s mark faulted
  have faulted' : (takeMove s).fault = some mark := faulted
  exact ⟨exec_of_faulted faulted, fun w next => (step_of_command next).trans (commandStep_of_faulted faulted' w)⟩

/-! ### A mark recorded in an unfaulted state -/

/-- Settles O17: the check of `IE` follows the entry checks, which `INIT` passes here. -/
theorem initWithInterruptsOnIsMarked : Obligations.InitWithInterruptsOnIsMarked := by
  unfold Obligations.InitWithInterruptsOnIsMarked
  exact fun s unfaulted life on => exec_init_of_ie_on unfaulted life on

theorem commandStep_of_rejected {r : ReservedWord} (unfaulted : s.fault = none) (rejected : decode w = .error r) :
    commandStep w s = .next { s with fault := some (.illegalCommand w), resp := none } := by
  rw [commandStep_of_error rejected, illegalCommand_of_unfaulted unfaulted]

theorem commandStep_of_misuse (unfaulted : s.fault = none) (decoded : decode w = .ok i)
    (misuse : (s.life = .uninitialized ∧ i.name ≠ .init) ∨ (s.life ≠ .uninitialized ∧ i.name = .init)) :
    commandStep w s = .next { s with fault := some (.lifecycleMisuse i.name s.life), resp := none } := by
  rw [commandStep_of_ok decoded, exec_of_misuse unfaulted (legalIn_name_eq_false misuse)]

/-- Settles O9: taking the move leaves the state unfaulted, and there the rejected word is marked. -/
theorem reservedWordMarksIllegalCommand : Obligations.ReservedWordMarksIllegalCommand := by
  unfold Obligations.ReservedWordMarksIllegalCommand
  intro s w r next rejected unfaulted
  have unfaulted' : (takeMove s).fault = none := unfaulted
  exact (step_of_command next).trans (commandStep_of_rejected unfaulted' rejected)

/-- Settles O34: one lemma for each fault; the two examples of R196 are a rejected word and a misused `INIT`. -/
theorem faultPriorityIsAsStated : Obligations.FaultPriorityIsAsStated := by
  unfold Obligations.FaultPriorityIsAsStated
  refine ⟨fun w s r unfaulted rejected => ⟨_, commandStep_of_rejected unfaulted rejected, rfl⟩,
    fun w i s unfaulted decoded misuse => ⟨_, commandStep_of_misuse unfaulted decoded misuse, rfl⟩,
    fun w s unfaulted decoded life on => ?preemptible, fun s unfaulted life _ => ⟨?illegal, ?misuse⟩⟩
  case preemptible =>
    exact ⟨_, (commandStep_of_ok decoded s).trans (exec_init_of_ie_on unfaulted life on), rfl⟩
  case illegal =>
    have rejected : decode 0x01000001 = .error ⟨.operandBitsSet, 0x01000001⟩ := rfl
    exact ⟨_, commandStep_of_rejected unfaulted rejected, rfl⟩
  case misuse =>
    have decoded : decode 0x01000000 = .ok .init := rfl
    have initialised : Initialised s := initialised_iff.mpr (.inr life)
    refine ⟨_, commandStep_of_misuse unfaulted decoded (.inr ⟨initialised, rfl⟩), ?_⟩
    rw [life]
    rfl

/-! ### A step that records a mark -/

/-- A command leaves `FAULT`, or it records a mark and writes nothing else. -/
theorem CommandEffect.fault_eq_or (he : CommandEffect i s t) :
    t.fault = s.fault ∨ ∃ mark, t = { s with fault := some mark, resp := none } := by
  cases he with
  | misuse | preemptible => exact .inr ⟨_, rfl⟩
  | init | enable | disable | setcolor | getcolor => exact .inl rfl

/-- Of the moves made in an unfaulted state only a command word leaves a mark, and then it writes nothing else. -/
theorem StepEffect.unmarked_or_command (he : StepEffect m s t) (unfaulted : s.fault = none) :
    t.fault = none ∨ ((∃ w, m = .command w) ∧ ∃ mark, t = { s with fault := some mark, resp := none }) := by
  cases he with
  | command _ _ effect => exact effect.fault_eq_or.imp (·.trans unfaulted) fun marked => ⟨⟨_, rfl⟩, marked⟩
  | reserved => exact .inr ⟨⟨_, rfl⟩, _, rfl⟩
  | tick | hostSetsIe => exact .inl unfaulted
  | rst => exact .inl rfl

/-- Settles O33: the step left a mark, so it was a command word that wrote this mark and nothing else. -/
theorem recordingAFaultWritesNothingElse : Obligations.RecordingAFaultWritesNothingElse := by
  unfold Obligations.RecordingAFaultWritesNothingElse
  intro s t mark stepped unfaulted marked
  obtain unmarked | ⟨command, mark', rfl⟩ := (step_next stepped).unmarked_or_command unfaulted
  · rw [unmarked] at marked
    cases marked
  · obtain rfl := Option.some.inj marked
    exact ⟨rfl, command⟩

end Sys2Proof.Machine
end

section
/-! PROOFS. Reset and the pins right after `ENABLE` (`70_reset_and_hazards.md` R220, R231). -/

namespace Sys2Proof.Machine

open Sys2Proof.Safety

variable {s : State}

/-! ### The reset step -/

theorem step_of_rst {lost : Option Word} {lostTick : Bool} (next : nextMove s = .rst lost lostTick) :
    step s = .next (resetStep (takeMove s)) := by
  rw [step, next]
  rfl

/-- Settles O10: the step resets the state in which the move is taken, and of that state only the host agent, `IE` and the draw
counter are left. -/
theorem resetDiscardsWhateverWasThere : Obligations.ResetDiscardsWhateverWasThere := by
  unfold Obligations.ResetDiscardsWhateverWasThere
  intro s lost lostTick next
  rw [step_of_rst next, resetStep, takeMove_host, takeMove_ie, takeMove_draw]

/-! ### The pins after `ENABLE` -/

/-- A zero compare value has no window: at count 0 the counter already rises. -/
theorem activeAt_zero {cnt : Count} {dir : Dir} (bottom : cnt = 0 → dir = .up) : activeAt cnt dir 0 = false := by
  rw [Bool.eq_false_iff, ne_eq, activeAt_iff]
  rintro (below | ⟨zero, down⟩)
  · exact absurd below (Nat.not_lt_zero _)
  · have up : dir = .up := bottom (BitVec.eq_of_toNat_eq zero)
    rw [up] at down
    cases down

/-- Black shows no light: its table entry is zero in every channel. -/
theorem pinLevel_of_black (h : RegistersConsistent s) (life : s.life = .enabled) (black : s.color = 0) (c : Channel) :
    pinLevel s c = .high := by
  have entry : lookup (colorField s.color c) = 0 := by
    rw [black]
    exact (congrArg lookup (colorField_zero c)).trans lookup_zero
  have bottom := (h.turns (initialised_iff.mpr (.inr life)) c.unit).2
  rw [pinLevel_of_enabled h life, entry, activeAt_zero bottom]
  rfl

/-- Settles O20: `ENABLE` leaves an enabled state that meets R36, with the counters and the colour of the state before. -/
theorem enableShowsTheStoredColour : Obligations.EnableShowsTheStoredColour := by
  unfold Obligations.EnableShowsTheStoredColour
  intro s unfaulted initialised consistent
  have consistent' : RegistersConsistent (noResponse (enableWrites s)) :=
    (consistent.after_enableWrites initialised).after_noResponse
  exact ⟨_, exec_enable_of_initialised unfaulted initialised, pinLevel_of_enabled consistent' rfl,
    pinLevel_of_black consistent' rfl⟩

end Sys2Proof.Machine
end
